-- ==== Sys2Proof/Word.lean ====
section
/-! DEFINITION. The word types of CORE (00_scope R7): the widths of its registers and table fields, and the two
records its tables hold. Every value is unsigned (R10). -/

namespace Sys2Proof

/-- One byte of `IN` or `OUT` (R10). -/
abbrev Byte := BitVec 8

/-- A frequency, a table entry or a sum: `FREQ_W = 32` bits (R7). -/
abbrev Freq := BitVec 32

/-- A node index: `IDX_W = 10` bits (R7). -/
abbrev NodeIdx := BitVec 10

/-- A value the host writes to `CMD`: 2 bits (R40). -/
abbrev CmdWord := BitVec 2

/-- An entry of `NODE` (R23, R83): frequency and the two children. The fields are named, not packed. -/
structure Node where
  f : Freq
  c0 : NodeIdx
  c1 : NodeIdx
  deriving DecidableEq, Repr, Inhabited

/-- An entry of `CODE` (R26, R84): `bits[d]` is the branch taken at depth `d`, `len` the depth of the leaf. -/
structure CodeEntry where
  bits : BitVec 32
  len : BitVec 6
  deriving DecidableEq, Repr, Inhabited

end Sys2Proof
end

