-- ==== Sys2Proof/Config.lean ====
section
/-! DEFINITION. What one CORE is built with and what the spec leaves open: the fixed parameters (R6, R7), the parameters
of an instance (R8) with the default `FREQ` (R22), and the free values, constants with no body that stand for every
value the spec calls unspecified (R34, R44). -/

namespace Sys2Proof.Config

/-- `NSYM` (R6): the number of symbols, also the required length of `FREQ`. -/
def nsym : Nat := 257

/-- `EOS` (R2, R6): the end-of-stream symbol, and its leaf's index in `NODE` (R23). -/
def eos : NodeIdx := 256#10

/-- `NNODE` (R7): 257 leaves and 256 internal nodes. -/
def nnode : Nat := 513

/-- `NULL` (R7, R23): the no-child value. -/
def null : NodeIdx := 0x3FF#10

/-- The longest code a `CODE` entry can hold (R7, R9). -/
def codeMax : Nat := 32

/-- The parameters of an instance (R8). `FREQ_LEN` is the length of `freq` (D20); `none` is an unbounded capacity. -/
structure Instance where
  freq : List Freq
  inMax : Option Nat
  outMax : Option Nat
  deriving DecidableEq, Repr, Inhabited

/-! The default `FREQ` of R22, 64 entries a piece. PRESUMED (unsafe, log 8): the spec marks the values
`[from general knowledge, not in source]` (G1). -/

def defaultFreq0 : List Freq := [
  1073741824, 4545, 2657, 431, 1950, 919, 444, 482, 2244, 617, 838, 542, 715, 1814, 304, 240,
  754, 212, 647, 186, 283, 131, 146, 166, 543, 164, 167, 136, 179, 859, 363, 113,
  157, 154, 204, 108, 137, 180, 202, 176, 872, 404, 168, 134, 151, 111, 113, 109,
  120, 126, 129, 100, 41, 20, 16, 22, 18, 18, 17, 19, 16, 37, 13, 21]

def defaultFreq1 : List Freq := [
  362, 166, 99, 78, 95, 88, 81, 70, 83, 284, 91, 187, 77, 68, 52, 68,
  59, 66, 61, 638, 71, 157, 50, 46, 69, 43, 11, 24, 13, 19, 10, 12,
  12, 20, 14, 9, 20, 20, 10, 10, 15, 15, 12, 12, 7, 19, 15, 14,
  13, 18, 35, 19, 17, 14, 8, 5, 15, 17, 9, 15, 14, 18, 8, 10]

def defaultFreq2 : List Freq := [
  2173, 134, 157, 68, 188, 60, 170, 60, 194, 62, 175, 71, 148, 67, 167, 78,
  211, 67, 156, 69, 1674, 90, 174, 53, 147, 89, 181, 51, 174, 63, 163, 80,
  167, 94, 128, 122, 223, 153, 218, 77, 200, 110, 190, 73, 174, 69, 145, 66,
  277, 143, 141, 60, 136, 53, 180, 57, 142, 57, 158, 61, 166, 112, 152, 92]

def defaultFreq3 : List Freq := [
  26, 22, 21, 28, 20, 26, 30, 21, 32, 27, 20, 17, 23, 21, 30, 22,
  22, 21, 27, 25, 17, 27, 23, 18, 39, 26, 15, 21, 12, 18, 18, 27,
  20, 18, 15, 19, 11, 17, 33, 12, 18, 15, 19, 18, 16, 26, 17, 18,
  9, 10, 25, 22, 22, 17, 20, 16, 6, 16, 15, 20, 14, 18, 24, 335]

/-- The default contents of `FREQ` (R22): symbols 0 to 255 in order, then `FREQ[256] = 1`. -/
def defaultFreq : List Freq := defaultFreq0 ++ defaultFreq1 ++ defaultFreq2 ++ defaultFreq3 ++ [1]

/-- The default instance (R8): the table of R22, unbounded buffers. -/
def defaultInstance : Instance := { freq := defaultFreq, inMax := none, outMax := none }

/-! Free values (log 5, log 6): nothing in Lean can evaluate them. Each is drawn at a value of `State.draws`. -/

/-- `LIVE` where R34 leaves it unspecified. -/
opaque freeLive : Nat → BitVec 513
/-- `NN` where R34 leaves it unspecified. -/
opaque freeNn : Nat → NodeIdx
/-- `ACC` where R34 leaves it unspecified. -/
opaque freeAcc : Nat → BitVec 39
/-- `BC` where R34 leaves it unspecified. -/
opaque freeBc : Nat → BitVec 6
/-- `CUR` where R34 leaves it unspecified. -/
opaque freeCur : Nat → NodeIdx
/-- `K` where R34 leaves it unspecified. -/
opaque freeK : Nat → Nat
/-- Entry `i` of `NODE` after a reset (R44, R210). -/
opaque freeNode : Nat → Nat → Node
/-- `ROOT` after a reset (R44, R210). -/
opaque freeRoot : Nat → NodeIdx
/-- Entry `i` of `CODE` after a reset (R44, R210). -/
opaque freeCode : Nat → Nat → CodeEntry

end Sys2Proof.Config
end

