-- ==== Sys2Proof/Syntax.lean ====
section
/-! DEFINITION. The instructions of CORE: one constructor per row of spec/opcode_table.json (R97). The three commands
(R80) and the 257 code words (R99). No row has an operand field (R81, R97): what a command works on is implicit, and a
code word is its bits. -/

namespace Sys2Proof

/-- The 260 rows of the opcode table, in its order. `symNNN` is the code word of symbol `NNN`, `symEos` that of EOS. -/
inductive Instr where
  | init | compress | decompress
  | sym000 | sym001 | sym002 | sym003 | sym004 | sym005 | sym006 | sym007 | sym008 | sym009 | sym010 | sym011 | sym012 | sym013 | sym014 | sym015
  | sym016 | sym017 | sym018 | sym019 | sym020 | sym021 | sym022 | sym023 | sym024 | sym025 | sym026 | sym027 | sym028 | sym029 | sym030 | sym031
  | sym032 | sym033 | sym034 | sym035 | sym036 | sym037 | sym038 | sym039 | sym040 | sym041 | sym042 | sym043 | sym044 | sym045 | sym046 | sym047
  | sym048 | sym049 | sym050 | sym051 | sym052 | sym053 | sym054 | sym055 | sym056 | sym057 | sym058 | sym059 | sym060 | sym061 | sym062 | sym063
  | sym064 | sym065 | sym066 | sym067 | sym068 | sym069 | sym070 | sym071 | sym072 | sym073 | sym074 | sym075 | sym076 | sym077 | sym078 | sym079
  | sym080 | sym081 | sym082 | sym083 | sym084 | sym085 | sym086 | sym087 | sym088 | sym089 | sym090 | sym091 | sym092 | sym093 | sym094 | sym095
  | sym096 | sym097 | sym098 | sym099 | sym100 | sym101 | sym102 | sym103 | sym104 | sym105 | sym106 | sym107 | sym108 | sym109 | sym110 | sym111
  | sym112 | sym113 | sym114 | sym115 | sym116 | sym117 | sym118 | sym119 | sym120 | sym121 | sym122 | sym123 | sym124 | sym125 | sym126 | sym127
  | sym128 | sym129 | sym130 | sym131 | sym132 | sym133 | sym134 | sym135 | sym136 | sym137 | sym138 | sym139 | sym140 | sym141 | sym142 | sym143
  | sym144 | sym145 | sym146 | sym147 | sym148 | sym149 | sym150 | sym151 | sym152 | sym153 | sym154 | sym155 | sym156 | sym157 | sym158 | sym159
  | sym160 | sym161 | sym162 | sym163 | sym164 | sym165 | sym166 | sym167 | sym168 | sym169 | sym170 | sym171 | sym172 | sym173 | sym174 | sym175
  | sym176 | sym177 | sym178 | sym179 | sym180 | sym181 | sym182 | sym183 | sym184 | sym185 | sym186 | sym187 | sym188 | sym189 | sym190 | sym191
  | sym192 | sym193 | sym194 | sym195 | sym196 | sym197 | sym198 | sym199 | sym200 | sym201 | sym202 | sym203 | sym204 | sym205 | sym206 | sym207
  | sym208 | sym209 | sym210 | sym211 | sym212 | sym213 | sym214 | sym215 | sym216 | sym217 | sym218 | sym219 | sym220 | sym221 | sym222 | sym223
  | sym224 | sym225 | sym226 | sym227 | sym228 | sym229 | sym230 | sym231 | sym232 | sym233 | sym234 | sym235 | sym236 | sym237 | sym238 | sym239
  | sym240 | sym241 | sym242 | sym243 | sym244 | sym245 | sym246 | sym247 | sym248 | sym249 | sym250 | sym251 | sym252 | sym253 | sym254 | sym255
  | symEos
  deriving DecidableEq, Repr, Inhabited

end Sys2Proof
end

