-- ==== Sys2Proof/Decode.lean ====
section
/-! DEFINITION. The encodings of CORE and the decoders. There are two encoding spaces (R97): the 2-bit command word a host
writes to `CMD` (R80), and the code words of the packed bitstream, taken LSB first (R61) and greedily from the front (R90).
Below them stand the encoder and the reading of an opcode-table word. -/

namespace Sys2Proof

/-! ## Bits and bytes -/

/-- The `n` low bits of `w` in stream order, bit 0 first (R10, R84). -/
def bitsLsb (n w : Nat) : List Bool := (List.range n).map w.testBit

/-- The eight bits of a byte in stream order (R61). -/
def byteBits (b : Byte) : List Bool := bitsLsb 8 b.toNat

/-- The bit string of a byte list: bit `k` is bit `k mod 8` of byte `k div 8` (R61, R62). -/
def bytesBits (bs : List Byte) : List Bool := bs.flatMap byteBits

/-- The value of a bit list, first bit at bit 0 (R10, R61). -/
def bitsValue : List Bool → Nat
  | [] => 0
  | b :: bs => b.toNat + 2 * bitsValue bs

/-- `P(B)` (R88): eight bits a byte, the last byte filled up with pad bits 0 (R7 `PAD`, R89); no byte for no bits (D12). -/
def packBits : List Bool → List Byte
  | [] => []
  | b0 :: b1 :: b2 :: b3 :: b4 :: b5 :: b6 :: b7 :: rest =>
    BitVec.ofNat 8 (bitsValue [b0, b1, b2, b3, b4, b5, b6, b7]) :: packBits rest
  | last => [BitVec.ofNat 8 (bitsValue last)]

/-- The bytes `0 .. n-1` of a number, the low byte first (R62). -/
def bytesLsb (n w : Nat) : List Byte := (List.range n).map fun j => BitVec.ofNat 8 (w >>> (8 * j))

/-! ## The encoding tables -/

/-- A row of the opcode table: the instruction, the number of bits of its encoding, and their value (`match`). -/
structure Row where
  instr : Instr
  len : Nat
  word : Nat
  deriving DecidableEq, Repr, Inhabited

/-- The bits of a row in stream order (R97: bit 0 of `match` is the first stream bit). -/
def Row.bits (r : Row) : List Bool := bitsLsb r.len r.word

/-- `CMD` (R80). -/
def commandRows : List Row := [⟨.init, 2, 0b01⟩, ⟨.compress, 2, 0b10⟩, ⟨.decompress, 2, 0b11⟩]

/-! The default code table (R99), 32 rows a piece. -/

def codeRows0 : List Row := [
  ⟨.sym000, 1, 0x1⟩, ⟨.sym001, 4, 0x8⟩, ⟨.sym002, 5, 0x2⟩, ⟨.sym003, 8, 0x16⟩,
  ⟨.sym004, 6, 0x1E⟩, ⟨.sym005, 7, 0x76⟩, ⟨.sym006, 8, 0x36⟩, ⟨.sym007, 8, 0x6E⟩,
  ⟨.sym008, 5, 0x4⟩, ⟨.sym009, 7, 0x4C⟩, ⟨.sym010, 7, 0x7A⟩, ⟨.sym011, 8, 0xFE⟩,
  ⟨.sym012, 7, 0x72⟩, ⟨.sym013, 6, 0xE⟩, ⟨.sym014, 8, 0xF4⟩, ⟨.sym015, 9, 0xEE⟩,
  ⟨.sym016, 7, 0x6A⟩, ⟨.sym017, 9, 0xA6⟩, ⟨.sym018, 7, 0x5C⟩, ⟨.sym019, 9, 0xAA⟩,
  ⟨.sym020, 8, 0xF0⟩, ⟨.sym021, 10, 0x1BE⟩, ⟨.sym022, 9, 0x34⟩, ⟨.sym023, 9, 0x7C⟩,
  ⟨.sym024, 7, 0x10⟩, ⟨.sym025, 9, 0x13C⟩, ⟨.sym026, 9, 0x12⟩, ⟨.sym027, 9, 0xD0⟩,
  ⟨.sym028, 9, 0xA⟩, ⟨.sym029, 7, 0x66⟩, ⟨.sym030, 8, 0xCA⟩, ⟨.sym031, 10, 0x12E⟩]

def codeRows1 : List Row := [
  ⟨.sym032, 9, 0x1AC⟩, ⟨.sym033, 9, 0x8C⟩, ⟨.sym034, 9, 0x1BA⟩, ⟨.sym035, 10, 0x3A6⟩,
  ⟨.sym036, 9, 0x30⟩, ⟨.sym037, 9, 0x8A⟩, ⟨.sym038, 9, 0x1DA⟩, ⟨.sym039, 9, 0xB2⟩,
  ⟨.sym040, 7, 0x56⟩, ⟨.sym041, 8, 0x3A⟩, ⟨.sym042, 9, 0x112⟩, ⟨.sym043, 10, 0x17E⟩,
  ⟨.sym044, 9, 0x1B4⟩, ⟨.sym045, 10, 0x2B6⟩, ⟨.sym046, 10, 0x22E⟩, ⟨.sym047, 10, 0x196⟩,
  ⟨.sym048, 10, 0x3AE⟩, ⟨.sym049, 10, 0x13E⟩, ⟨.sym050, 10, 0xBE⟩, ⟨.sym051, 10, 0x35A⟩,
  ⟨.sym052, 11, 0x23C⟩, ⟨.sym053, 12, 0xD1C⟩, ⟨.sym054, 13, 0x6BE⟩, ⟨.sym055, 12, 0x38A⟩,
  ⟨.sym056, 12, 0x5D4⟩, ⟨.sym057, 12, 0xE70⟩, ⟨.sym058, 12, 0xA50⟩, ⟨.sym059, 12, 0x674⟩,
  ⟨.sym060, 13, 0x1C3E⟩, ⟨.sym061, 11, 0x74⟩, ⟨.sym062, 13, 0x5A6⟩, ⟨.sym063, 12, 0x152⟩]

def codeRows2 : List Row := [
  ⟨.sym064, 8, 0x4A⟩, ⟨.sym065, 9, 0x1BC⟩, ⟨.sym066, 10, 0x15A⟩, ⟨.sym067, 10, 0x38C⟩,
  ⟨.sym068, 10, 0x19A⟩, ⟨.sym069, 10, 0x1B2⟩, ⟨.sym070, 10, 0x3C⟩, ⟨.sym071, 10, 0x70⟩,
  ⟨.sym072, 10, 0x17C⟩, ⟨.sym073, 8, 0x94⟩, ⟨.sym074, 10, 0x12A⟩, ⟨.sym075, 9, 0x1AA⟩,
  ⟨.sym076, 10, 0x30C⟩, ⟨.sym077, 10, 0x1D0⟩, ⟨.sym078, 11, 0x426⟩, ⟨.sym079, 11, 0x77E⟩,
  ⟨.sym080, 11, 0xAE⟩, ⟨.sym081, 11, 0x7BE⟩, ⟨.sym082, 11, 0x3E⟩, ⟨.sym083, 7, 0x6C⟩,
  ⟨.sym084, 10, 0x214⟩, ⟨.sym085, 9, 0xAC⟩, ⟨.sym086, 11, 0xBA⟩, ⟨.sym087, 11, 0x1A⟩,
  ⟨.sym088, 10, 0x330⟩, ⟨.sym089, 11, 0x552⟩, ⟨.sym090, 13, 0xB8A⟩, ⟨.sym091, 12, 0x79A⟩,
  ⟨.sym092, 13, 0x1CBA⟩, ⟨.sym093, 12, 0xC74⟩, ⟨.sym094, 13, 0x77C⟩, ⟨.sym095, 13, 0x139A⟩]

def codeRows3 : List Row := [
  ⟨.sym096, 13, 0x39A⟩, ⟨.sym097, 12, 0x51C⟩, ⟨.sym098, 13, 0x18B6⟩, ⟨.sym099, 13, 0x11D4⟩,
  ⟨.sym100, 12, 0x89C⟩, ⟨.sym101, 12, 0x9C⟩, ⟨.sym102, 13, 0x1E74⟩, ⟨.sym103, 13, 0xE74⟩,
  ⟨.sym104, 13, 0x15AE⟩, ⟨.sym105, 13, 0x5AE⟩, ⟨.sym106, 13, 0x1B9A⟩, ⟨.sym107, 13, 0xB9A⟩,
  ⟨.sym108, 14, 0x4AE⟩, ⟨.sym109, 12, 0x474⟩, ⟨.sym110, 13, 0x1DAE⟩, ⟨.sym111, 13, 0x8B6⟩,
  ⟨.sym112, 13, 0xCBA⟩, ⟨.sym113, 12, 0x670⟩, ⟨.sym114, 11, 0x270⟩, ⟨.sym115, 12, 0xA74⟩,
  ⟨.sym116, 12, 0x250⟩, ⟨.sym117, 13, 0x14B6⟩, ⟨.sym118, 14, 0x16BE⟩, ⟨.sym119, 15, 0x5B8A⟩,
  ⟨.sym120, 13, 0xDAE⟩, ⟨.sym121, 12, 0xE50⟩, ⟨.sym122, 13, 0x1D4⟩, ⟨.sym123, 13, 0x11AE⟩,
  ⟨.sym124, 13, 0x4B6⟩, ⟨.sym125, 12, 0xB54⟩, ⟨.sym126, 14, 0x24AE⟩, ⟨.sym127, 13, 0x171C⟩]

def codeRows4 : List Row := [
  ⟨.sym128, 5, 0x0⟩, ⟨.sym129, 10, 0x27E⟩, ⟨.sym130, 9, 0x12C⟩, ⟨.sym131, 11, 0x37E⟩,
  ⟨.sym132, 9, 0x11A⟩, ⟨.sym133, 11, 0x1EE⟩, ⟨.sym134, 9, 0x52⟩, ⟨.sym135, 11, 0x6AE⟩,
  ⟨.sym136, 9, 0x5A⟩, ⟨.sym137, 11, 0x23E⟩, ⟨.sym138, 9, 0x132⟩, ⟨.sym139, 10, 0x14⟩,
  ⟨.sym140, 9, 0xB4⟩, ⟨.sym141, 11, 0x47E⟩, ⟨.sym142, 9, 0x1FC⟩, ⟨.sym143, 10, 0x18C⟩,
  ⟨.sym144, 9, 0x126⟩, ⟨.sym145, 11, 0x7E⟩, ⟨.sym146, 9, 0x2C⟩, ⟨.sym147, 10, 0x130⟩,
  ⟨.sym148, 6, 0x6⟩, ⟨.sym149, 10, 0x18A⟩, ⟨.sym150, 9, 0x32⟩, ⟨.sym151, 11, 0x626⟩,
  ⟨.sym152, 9, 0x134⟩, ⟨.sym153, 10, 0x3B2⟩, ⟨.sym154, 9, 0x2A⟩, ⟨.sym155, 11, 0x2BA⟩,
  ⟨.sym156, 9, 0x1D2⟩, ⟨.sym157, 11, 0x63E⟩, ⟨.sym158, 9, 0x19C⟩, ⟨.sym159, 10, 0x29C⟩]

def codeRows5 : List Row := [
  ⟨.sym160, 9, 0xFC⟩, ⟨.sym161, 10, 0x21A⟩, ⟨.sym162, 10, 0x33E⟩, ⟨.sym163, 10, 0x3EE⟩,
  ⟨.sym164, 9, 0x1B6⟩, ⟨.sym165, 9, 0xC⟩, ⟨.sym166, 9, 0x96⟩, ⟨.sym167, 10, 0x10C⟩,
  ⟨.sym168, 9, 0xDA⟩, ⟨.sym169, 10, 0x396⟩, ⟨.sym170, 9, 0x9A⟩, ⟨.sym171, 10, 0x3D4⟩,
  ⟨.sym172, 9, 0xD2⟩, ⟨.sym173, 10, 0x3D0⟩, ⟨.sym174, 9, 0xD4⟩, ⟨.sym175, 11, 0x3BE⟩,
  ⟨.sym176, 8, 0xB0⟩, ⟨.sym177, 9, 0x54⟩, ⟨.sym178, 9, 0x170⟩, ⟨.sym179, 11, 0x2AE⟩,
  ⟨.sym180, 9, 0x150⟩, ⟨.sym181, 11, 0x226⟩, ⟨.sym182, 9, 0x10A⟩, ⟨.sym183, 11, 0x72E⟩,
  ⟨.sym184, 9, 0x114⟩, ⟨.sym185, 11, 0x32E⟩, ⟨.sym186, 9, 0x1C⟩, ⟨.sym187, 11, 0x5EE⟩,
  ⟨.sym188, 9, 0xBC⟩, ⟨.sym189, 10, 0x2E⟩, ⟨.sym190, 9, 0x174⟩, ⟨.sym191, 10, 0x32A⟩]

def codeRows6 : List Row := [
  ⟨.sym192, 12, 0xEBA⟩, ⟨.sym193, 12, 0xB52⟩, ⟨.sym194, 12, 0xE3C⟩, ⟨.sym195, 12, 0xCB6⟩,
  ⟨.sym196, 12, 0xC9C⟩, ⟨.sym197, 12, 0x6BA⟩, ⟨.sym198, 12, 0x43E⟩, ⟨.sym199, 12, 0x63C⟩,
  ⟨.sym200, 12, 0xABE⟩, ⟨.sym201, 12, 0xB6⟩, ⟨.sym202, 12, 0x49C⟩, ⟨.sym203, 12, 0x650⟩,
  ⟨.sym204, 12, 0xF8A⟩, ⟨.sym205, 12, 0xB7C⟩, ⟨.sym206, 12, 0xCAE⟩, ⟨.sym207, 12, 0x352⟩,
  ⟨.sym208, 12, 0xF52⟩, ⟨.sym209, 12, 0x37C⟩, ⟨.sym210, 12, 0x9A6⟩, ⟨.sym211, 12, 0x4BA⟩,
  ⟨.sym212, 12, 0x850⟩, ⟨.sym213, 12, 0x1A6⟩, ⟨.sym214, 12, 0x78A⟩, ⟨.sym215, 12, 0x354⟩,
  ⟨.sym216, 11, 0x11C⟩, ⟨.sym217, 12, 0x826⟩, ⟨.sym218, 13, 0x1AE⟩, ⟨.sym219, 12, 0xF7C⟩,
  ⟨.sym220, 13, 0x141A⟩, ⟨.sym221, 12, 0xF54⟩, ⟨.sym222, 12, 0x754⟩, ⟨.sym223, 12, 0xDA6⟩]

def codeRows7 : List Row := [
  ⟨.sym224, 12, 0xB1C⟩, ⟨.sym225, 12, 0x954⟩, ⟨.sym226, 13, 0x19AE⟩, ⟨.sym227, 12, 0x274⟩,
  ⟨.sym228, 13, 0x177C⟩, ⟨.sym229, 12, 0x50⟩, ⟨.sym230, 12, 0xEBE⟩, ⟨.sym231, 13, 0x41A⟩,
  ⟨.sym232, 12, 0x154⟩, ⟨.sym233, 13, 0x9AE⟩, ⟨.sym234, 12, 0xDD4⟩, ⟨.sym235, 12, 0xD54⟩,
  ⟨.sym236, 13, 0xC3E⟩, ⟨.sym237, 12, 0x26⟩, ⟨.sym238, 12, 0xC50⟩, ⟨.sym239, 12, 0x554⟩,
  ⟨.sym240, 14, 0x36BE⟩, ⟨.sym241, 13, 0x71C⟩, ⟨.sym242, 12, 0xF9A⟩, ⟨.sym243, 12, 0x752⟩,
  ⟨.sym244, 12, 0x952⟩, ⟨.sym245, 12, 0x450⟩, ⟨.sym246, 12, 0x31C⟩, ⟨.sym247, 13, 0x12BE⟩,
  ⟨.sym248, 14, 0x3B8A⟩, ⟨.sym249, 13, 0x2BE⟩, ⟨.sym250, 13, 0x14AE⟩, ⟨.sym251, 12, 0xF1C⟩,
  ⟨.sym252, 13, 0x15A6⟩, ⟨.sym253, 12, 0x9D4⟩, ⟨.sym254, 12, 0xC1A⟩, ⟨.sym255, 8, 0x92⟩]

/-- The 257 code words of the default table (R99, R97). -/
def codeRows : List Row :=
  codeRows0 ++ codeRows1 ++ codeRows2 ++ codeRows3 ++ codeRows4 ++ codeRows5 ++ codeRows6 ++ codeRows7 ++
    [⟨.symEos, 15, 0x1B8A⟩]

/-! ## Decoding -/

/-- Why a decoder rejects. -/
inductive DecodeError where
  /-- `CMD = 0b00` is reserved (R93). -/
  | reservedCommand
  /-- the bits end before a code word does (R90, R95: no bit string is an illegal code word). -/
  | incompleteCodeWord
  deriving DecidableEq, Repr

/-- The decoder of the command word (R80): total on the four values of `CMD`. -/
def decodeCommand (c : CmdWord) : Except DecodeError Instr :=
  match commandRows.find? fun r => r.word == c.toNat with
  | some r => .ok r.instr
  | none => .error .reservedCommand

/-- What follows the bits `p` at the front of `bs`, if they stand there. -/
def dropPrefix : List Bool → List Bool → Option (List Bool)
  | [], bs => some bs
  | _ :: _, [] => none
  | p :: ps, b :: bs => if p = b then dropPrefix ps bs else none

/-- The first row whose bits stand at the front of `bs`, and the bits behind them. -/
def firstMatch : List Row → List Bool → Option (Instr × List Bool)
  | [], _ => none
  | r :: rs, bs =>
    match dropPrefix r.bits bs with
    | some rest => some (r.instr, rest)
    | none => firstMatch rs bs

/-- The decoder of the bitstream (R90, R97): the code word at the front of any bit string, and the bits behind it. -/
def decodeCodeWord (bs : List Bool) : Except DecodeError (Instr × List Bool) :=
  match firstMatch codeRows bs with
  | some p => .ok p
  | none => .error .incompleteCodeWord

/-- The decoder of the bitstream on bytes: the code word that starts at the first bit of the first byte (R61, R90). -/
def decodeBytes (bs : List Byte) : Except DecodeError (Instr × List Bool) := decodeCodeWord (bytesBits bs)

/-! ## Encoding -/

/-- All rows: commands, then code words. -/
def allRows : List Row := commandRows ++ codeRows

/-- The row that encodes an instruction. -/
def encodeRow (i : Instr) : Row := (allRows.find? fun r => r.instr == i).getD default

/-- The encoding of an instruction as a bit string in stream order (R80, R86). -/
def encodeBits (i : Instr) : List Bool := (encodeRow i).bits

/-- The encoding of a command as a value of `CMD` (R80). -/
def encodeCommand (i : Instr) : CmdWord := BitVec.ofNat 2 (encodeRow i).word

/-- The encoding of an instruction as bytes, padded with zero bits (R88). -/
def encode (i : Instr) : List Byte := packBits (encodeBits i)

/-- Whether the instruction is one of the three commands (R80) and not a code word (R97). -/
def Instr.isCommand (i : Instr) : Bool := commandRows.any fun r => r.instr == i

/-- The code word of symbol `s`, 0 to 256, as an instruction: row `s` of R99. -/
def symbolInstr (s : Nat) : Option Instr := (codeRows[s]?).map Row.instr

/-! ## The words of the opcode table -/

/-- Whether a word of `nbits` bits is read in the command space. DESIGN CHOICE (log 2): the two spaces share bit patterns,
and a 2-bit word, or a word of one byte that holds 1, 2 or 3, is read as a command. -/
def isCommandWord (nbits w : Nat) : Bool := nbits == 2 || (nbits == 8 && decide (1 ≤ w) && decide (w ≤ 3))

/-- How many bytes a word of `nbits` bits is laid out in: at least the two bytes of the longest code word, 15 bits (R27). -/
def laidBytes (nbits : Nat) : Nat := max 2 ((nbits + 7) / 8)

/-- The bytes a word of `nbits` bits is laid out in, the bits above `nbits` zero (R61, R62). -/
def layout (nbits w : Nat) : List Byte := bytesLsb (laidBytes nbits) (w % 2 ^ nbits)

/-- The instruction the decoder reads from an opcode-table word: bit 0 is the first bit. -/
def decodeTableWord (nbits w : Nat) : Option Instr :=
  if isCommandWord nbits w then (decodeCommand (BitVec.ofNat 2 w)).toOption
  else (decodeBytes (layout nbits w)).toOption.map Prod.fst

end Sys2Proof
end

