-- ==== Sys2Proof/Machine/State.lean ====
section
/-! DEFINITION. The state of CORE as plain data (10_state), the reasons a step can stop, and the state after reset. The
operations over it stand in Machine/Ops.lean. -/

namespace Sys2Proof.Machine

/-- A byte buffer, `IN` or `OUT` (R29): the bytes that hold a specified value, index and byte, indices strictly rising.
An unlisted index reads as no value (log 7). -/
abbrev Memory := List Host.Cell

/-- The outcome of the latest command, `RES` (R41, R82). Its 2-bit codes are `Result.toBits`. -/
inductive Result where
  | ok | configurationError | truncatedInput | corruptStream
  deriving DecidableEq, Repr

/-- MODEL's own (log 1): nothing runs, or a DECOMPRESS is seen in progress at a code-word boundary. -/
inductive Phase where
  | idle | decoding
  deriving DecidableEq, Repr

/-- What the host does between commands (R227, R229). -/
inductive HostAction where
  /-- asserts reset (R210). -/
  | reset
  /-- writes `IN[0..n-1]` and `IN_LEN <- n` (R29, R229). -/
  | writeIn (bytes : List Byte)
  /-- writes `CMD`, which starts a command (R40). -/
  | writeCmd (c : CmdWord)
  deriving DecidableEq, Repr

/-- The three tables INIT writes (R20). -/
structure Tables where
  node : List Node
  root : NodeIdx
  code : List CodeEntry
  deriving DecidableEq, Repr

/-- The state of CORE (R20, R43) and, last, the three fields that are the model's own. -/
structure State where
  /-- `FREQ`, `FREQ_LEN`, `IN_MAX`, `OUT_MAX`: constants of the instance (R8, R21), which no step writes -/
  inst : Config.Instance
  /-- `NODE[0..512]` (R23) -/
  node : List Node
  /-- `ROOT` (R24) -/
  root : NodeIdx
  /-- `CODE[0..256]` (R26) -/
  code : List CodeEntry
  /-- `READY` (R42) -/
  ready : Bool
  /-- `RES` (R41) -/
  res : Result
  /-- `IN` (R29) -/
  inp : Memory
  /-- `IN_LEN` (R29) -/
  inLen : Nat
  /-- `OUT` (R29) -/
  out : Memory
  /-- `OUT_LEN` (R29) -/
  outLen : Nat
  /-- `LIVE` (R31), the 513-bit mask of its hardware form -/
  live : BitVec 513
  /-- `NN` (R31) -/
  nn : NodeIdx
  /-- `ACC` (R32) -/
  acc : BitVec 39
  /-- `BC` (R32) -/
  bc : BitVec 6
  /-- `CUR` (R33) -/
  cur : NodeIdx
  /-- `K` (R33) -/
  k : Nat
  /-- MODEL's own (log 1) -/
  phase : Phase
  /-- MODEL's own (log 3): the host actions still to come, oldest first -/
  host : List HostAction
  /-- MODEL's own (log 6): the number of times free values have been drawn -/
  draws : Nat
  deriving DecidableEq, Repr

/-- Why the machine stops. No state that a run from reset reaches raises any of them. -/
inductive Fault where
  /-- The decoder reads `NODE` at an index of 513 or more, which R66 says no rule produces (log 16). Safe. -/
  | noSuchNode
  /-- The encoder reads `CODE` at a symbol the table does not hold (R66, log 16). Safe. -/
  | noSuchCode
  /-- COMPRESS or DECOMPRESS reads a byte of `IN` below `IN_LEN` that nothing has written (R44, log 7). Safe. -/
  | unspecifiedByte
  deriving DecidableEq, Repr

/-- What the model gives no meaning. -/
inductive Refusal where
  /-- Raised by no meaning; an instruction whose meaning is not written yet. Safe. -/
  | notModelled (mnemonic : String)
  /-- The step, on a write of 0 to `CMD`: "a model refuses it" (R93, D25, log 11). Safe. -/
  | reservedCommand
  /-- The step, on a host write with `IN_LEN > IN_MAX`: "not specified", to be refused (R217, D4, log 10). Safe. -/
  | inputTooLong
  /-- COMPRESS or DECOMPRESS, on a write beyond `OUT_MAX`: "not specified", to be refused (R217, D4, log 10). Safe. -/
  | outputOverflow
  /-- INIT, on a `FREQ` whose sum reaches 2^32 or whose tree is deeper than 32: "a model refuses it" (R9, D15, log 9). Safe. -/
  | unsupportedFreq
  deriving DecidableEq, Repr

/-- CORE right after reset (R44). `READY`, `RES`, `OUT_LEN`, `IN_LEN` are R44's; the tables and working registers, which
R44 leaves unspecified, are zero (DESIGN CHOICE, unsafe, log 4); `IN` and `OUT` list nothing (log 7). -/
def State.reset : State where
  inst := Config.defaultInstance
  node := List.replicate Config.nnode ⟨0, 0, 0⟩
  root := 0
  code := List.replicate Config.nsym ⟨0, 0⟩
  ready := false
  res := .ok
  inp := []
  inLen := 0
  out := []
  outLen := 0
  live := 0
  nn := 0
  acc := 0
  bc := 0
  cur := 0
  k := 0
  phase := .idle
  host := []
  draws := 0

end Sys2Proof.Machine
end

