-- ==== Sys2Proof/Machine/Flags.lean ====
section
/-! DEFINITION. CORE has no flags (R39). Its only outcome indication is `RES`, here with the numbers R82 gives it, beside
the two other values the host reads as bits (R43). -/

namespace Sys2Proof.Machine

/-- `RES[1:0]` (R82). -/
def Result.toBits : Result → BitVec 2
  | .ok => 0
  | .configurationError => 1
  | .truncatedInput => 2
  | .corruptStream => 3

/-- The outcome a value of `RES` names (R41: all four values are legal). -/
def Result.ofBits (b : BitVec 2) : Result :=
  if b = 0 then .ok else if b = 1 then .configurationError else if b = 2 then .truncatedInput else .corruptStream

/-- What the host reads from `RES` (R41, R43). -/
def State.readRes (s : State) : BitVec 2 := s.res.toBits

/-- What the host reads from `READY` (R42, R43). -/
def State.readReady (s : State) : BitVec 1 := BitVec.ofBool s.ready

end Sys2Proof.Machine
end

