-- ==== Sys2Proof/Machine/Ops.lean ====
section
/-! DEFINITION. The named operations over the buffers and registers: the one byte access (R64), the append to `OUT` (R11,
R75), the table reads, ending a command with a failure (R186) or without, what is unspecified afterwards (R34), and the
host's moves (R229). -/

namespace Sys2Proof.Machine

/-! ## Buffers -/

/-- The byte at index `a`, or no value where nothing specified stands (log 7). -/
def Memory.read : Memory → Nat → Option Byte
  | [], _ => none
  | (b, v) :: m, a => if b = a then some v else Memory.read m a

/-- `m[a] <- v`, keeping the indices strictly rising. -/
def Memory.write : Memory → Nat → Byte → Memory
  | [], a, v => [(a, v)]
  | (b, w) :: m, a, v =>
    if a < b then (a, v) :: (b, w) :: m
    else if a = b then (a, v) :: m
    else (b, w) :: Memory.write m a v

/-- The canonical form: indices strictly rising. -/
def Memory.wf : Memory → Bool
  | [] => true
  | [_] => true
  | (a, _) :: (b, w) :: m => decide (a < b) && Memory.wf ((b, w) :: m)

/-- The bytes `bs` at indices `i, i+1, …`, and nothing else. -/
def Memory.ofBytes (i : Nat) : List Byte → Memory
  | [] => []
  | b :: bs => (i, b) :: Memory.ofBytes (i + 1) bs

/-- The `n` bytes at indices `i, i+1, …`, if all of them hold a specified value. -/
def Memory.bytes (m : Memory) (i : Nat) : Nat → Option (List Byte)
  | 0 => some []
  | n + 1 =>
    match m.read i, Memory.bytes m (i + 1) n with
    | some b, some bs => some (b :: bs)
    | _, _ => none

/-- Whether `n` bytes fit a capacity (R8: `none` is unbounded). -/
def fits (n : Nat) (cap : Option Nat) : Bool :=
  match cap with
  | none => true
  | some c => decide (n ≤ c)

/-! ## Table reads (R64, R66) -/

/-- `NODE[n]`, if the table has that entry. -/
def State.nodeAt (s : State) (n : NodeIdx) : Option Node := s.node[n.toNat]?

/-- `CODE[sym]`, if the table has that entry. -/
def State.codeAt (s : State) (sym : Nat) : Option CodeEntry := s.code[sym]?

/-! ## Running one thing after another -/

/-- `f` on the next state, if there is one. -/
def andThen (o : Host.Outcome State Fault Refusal) (f : State → Host.Outcome State Fault Refusal) :
    Host.Outcome State Fault Refusal :=
  match o with
  | .next s => f s
  | .fault e => .fault e
  | .refused r => .refused r

/-! ## The output buffer -/

/-- `MemWrite(OUT, OUT_LEN, 1, v)` and `OUT_LEN <- OUT_LEN + 1` (R11). -/
def State.append (v : Byte) (s : State) : State :=
  { s with out := s.out.write s.outLen v, outLen := s.outLen + 1 }

/-- The append as a command makes it: refused beyond `OUT_MAX` (R217, log 10). -/
def emitByte (v : Byte) (s : State) : Host.Outcome State Fault Refusal :=
  if fits (s.outLen + 1) s.inst.outMax then .next (s.append v) else .refused .outputOverflow

/-- `OUT_LEN <- 0`; from here on every byte of `OUT` is unspecified until it is written (R141, R161, log 7). -/
def State.clearOut (s : State) : State := { s with out := [], outLen := 0 }

/-! ## The decoder's position -/

/-- `K <- K + 1` (R162). -/
def State.countBit (s : State) : State := { s with k := s.k + 1 }

/-- `CUR <- n` (R163, R164). -/
def State.moveTo (n : NodeIdx) (s : State) : State := { s with cur := n }

/-! ## The end of a command -/

/-- `raise <Condition>` (R186): `RES` is set to its code, `OUT_LEN <- 0`, `OUT` is unspecified, nothing else changes. This
is the one operation that takes a failure. Nothing is saved and there is no return from it (R188). -/
def raise (c : Result) (s : State) : State := { s with res := c, outLen := 0, out := [] }

/-- `RES <- OK` (R110, R140, R160). -/
def succeed (s : State) : State := { s with res := .ok }

/-- `LIVE` and `NN` are unspecified after the command that used them (R34, log 6). -/
def releaseBuilder (s : State) : State :=
  { s with live := Config.freeLive s.draws, nn := Config.freeNn s.draws, draws := s.draws + 1 }

/-- `ACC` and `BC` are unspecified after the command that used them (R34, log 6). -/
def releaseEncoder (s : State) : State :=
  { s with acc := Config.freeAcc s.draws, bc := Config.freeBc s.draws, draws := s.draws + 1 }

/-- `CUR` and `K` are unspecified after the command that used them (R34, log 6), and no decoding is in progress. -/
def releaseDecoder (s : State) : State :=
  { s with cur := Config.freeCur s.draws, k := Config.freeK s.draws, phase := .idle, draws := s.draws + 1 }

/-- A failure raised before the command uses any working register: the registers keep their values (R186). -/
def raiseIdle (c : Result) (s : State) : State := raise c { s with phase := .idle }

/-! ## The first lines of the commands -/

/-- `ACC <- 0 ; BC <- 0 ; OUT_LEN <- 0` (R141). -/
def startEncoder (s : State) : State := { s with acc := 0, bc := 0, out := [], outLen := 0 }

/-- `CUR <- ROOT ; K <- 0 ; OUT_LEN <- 0` (R161). -/
def startDecoder (s : State) : State := { s with cur := s.root, k := 0, out := [], outLen := 0 }

/-- The tables INIT built, and `READY <- 1` (R117). -/
def loadTables (t : Tables) (s : State) : State :=
  { s with node := t.node, root := t.root, code := t.code, ready := true }

/-! ## The host's moves (R229) -/

/-- `IN[0..n-1]` and `IN_LEN <- n` (R29). Bytes at or beyond `n` are never read (R75) and are left out. -/
def hostWriteIn (bs : List Byte) (s : State) : State :=
  { s with inp := Memory.ofBytes 0 bs, inLen := bs.length }

/-- Reset (R210): `READY`, `RES`, `OUT_LEN`, `IN_LEN` as R44 says; the tables, the buffers and the working registers become
unspecified (free values, log 5; buffers log 7); the instance's constants are untouched. -/
def hostReset (s : State) : State where
  inst := s.inst
  node := (List.range Config.nnode).map (Config.freeNode s.draws)
  root := Config.freeRoot s.draws
  code := (List.range Config.nsym).map (Config.freeCode s.draws)
  ready := false
  res := .ok
  inp := []
  inLen := 0
  out := []
  outLen := 0
  live := Config.freeLive s.draws
  nn := Config.freeNn s.draws
  acc := Config.freeAcc s.draws
  bc := Config.freeBc s.draws
  cur := Config.freeCur s.draws
  k := Config.freeK s.draws
  phase := .idle
  host := s.host
  draws := s.draws + 1

end Sys2Proof.Machine
end

