-- ==== Sys2Proof/Machine/Operands.lean ====
section
/-! DEFINITION. What the commands work on (R81: all operands are implicit): the bytes and bits of `IN`, the code word of a
symbol and the bit string of a byte list in the terms of the format rules R86 to R88, and the leaves of a `FREQ`. -/

namespace Sys2Proof.Machine

/-- `IN[0..IN_LEN-1]` (R29, R75: a model may read each byte once and keep it), if all of them hold a specified value. -/
def State.inputBytes (s : State) : Option (List Byte) := s.inp.bytes 0 s.inLen

/-- The `8 * IN_LEN` input bits in stream order (R90, R162). -/
def State.inputBits (s : State) : Option (List Bool) := s.inputBytes.map bytesBits

/-- `OUT[0..OUT_LEN-1]`, what the host reads after `RES = OK` (R29). -/
def State.outputBytes (s : State) : Option (List Byte) := s.out.bytes 0 s.outLen

/-- The code word of a `CODE` entry in stream order (R86). -/
def CodeEntry.stream (c : CodeEntry) : List Bool := bitsLsb c.len.toNat c.bits.toNat

/-- `code(s)` for a symbol (R86); nothing where the table has no such entry. -/
def codeOf (code : List CodeEntry) (sym : Nat) : List Bool :=
  match code[sym]? with
  | some c => CodeEntry.stream c
  | none => []

/-- `B(d)` (R87): the code words of the bytes, then that of EOS. -/
def bitString (code : List CodeEntry) (d : List Byte) : List Bool :=
  (d.flatMap fun b => codeOf code b.toNat) ++ codeOf code Config.eos.toNat

/-- The leaf of a symbol (R111, R23). -/
def leafNode (f : Freq) : Node := { f := f, c0 := Config.null, c1 := Config.null }

/-- `NODE[0..256]`, in index order (R111). -/
def leaves (freq : List Freq) : List Node := freq.map leafNode

end Sys2Proof.Machine
end

