-- ==== Sys2Proof/Machine/Decompress.lean ====
section
/-! DEFINITION. DECOMPRESS, the bit decoder (42_decoder), on `CUR` and `K` as the pseudocode of R160 has it: one turn of its
loop, the loop over a bit list, and the command. -/

namespace Sys2Proof.Machine

/-- What stands after bits have been taken: the walk goes on from a state, or the command has ended. -/
inductive Walk where
  | going (s : State)
  | ended (o : Host.Outcome State Fault Refusal)
  deriving Repr

/-- The child the branch bit selects (R163, R85). -/
def branch (bit : Bool) (nd : Node) : NodeIdx := if bit then nd.c1 else nd.c0

/-- A byte leaf (R164): the byte of the leaf is appended and the walk restarts from the root. -/
def byteLeaf (leaf : NodeIdx) (s : State) : Walk :=
  match emitByte (leaf.setWidth 8) s with
  | .next s' => .going (s'.moveTo s'.root)
  | o => .ended o

/-- One turn of the loop of R160 with the bit already fetched: `K <- K + 1` (R162), the branch (R163), the missing child
(R166), the move, the leaf test (R164). -/
def decodeBit (bit : Bool) (s : State) : Walk :=
  match s.nodeAt s.cur with
  | none => .ended (.fault .noSuchNode)
  | some nd =>
    let nxt := branch bit nd
    let s1 := s.countBit
    if nxt = Config.null then .ended (.next (raise .corruptStream (releaseDecoder s1)))
    else if nxt = Config.eos then .ended (.next (succeed (releaseDecoder s1)))
    else if nxt.toNat ≤ 256 then byteLeaf nxt s1
    else .going (s1.moveTo nxt)

/-- The loop of R160 over bits already fetched, in order, each once (R162). -/
def decodeBits : List Bool → State → Walk
  | [], s => .going s
  | b :: bs, s =>
    match decodeBit b s with
    | .going s' => decodeBits bs s'
    | .ended o => .ended o

/-- The end of the input: a walk that still goes on raises `TruncatedInput` (R165). -/
def endOfInput : Walk → Host.Outcome State Fault Refusal
  | .going s => .next (raise .truncatedInput (releaseDecoder s))
  | .ended o => o

/-- `DECOMPRESS` (R160): not ready (R167), start (R161), the loop over the input bits, truncation (R165). -/
def execDecompress (s : State) : Host.Outcome State Fault Refusal :=
  if s.ready then
    match s.inputBits with
    | none => .fault .unspecifiedByte
    | some bits => endOfInput (decodeBits bits (startDecoder s))
  else .next (raiseIdle .configurationError s)

end Sys2Proof.Machine
end

