-- ==== Sys2Proof/Machine/CodeWords.lean ====
section
/-! DEFINITION. The meanings of the 257 code words (R97, R99): one line each over `consumeCodeWord`, with the code word's own
bits, first stream bit at bit 0, and its length. -/

namespace Sys2Proof.Machine

/-- The decoder takes the `len` bits of a code word (R162), one at a time, through the tree (R163, R164). With `READY = 0`
there is no tree and the decoder raises `ConfigurationError`, as R167 says of the command it belongs to (log 25). -/
def consumeCodeWord (word len : Nat) (s : State) : Host.Outcome State Fault Refusal :=
  if s.ready then
    match decodeBits (bitsLsb len word) s with
    | .going s' => .next s'
    | .ended o => o
  else .next (raiseIdle .configurationError s)

def execSym000 (s : State) : Host.Outcome State Fault Refusal := consumeCodeWord 0x1 1 s
def execSym001 (s : State) : Host.Outcome State Fault Refusal := consumeCodeWord 0x8 4 s
def execSym002 (s : State) : Host.Outcome State Fault Refusal := consumeCodeWord 0x2 5 s
def execSym003 (s : State) : Host.Outcome State Fault Refusal := consumeCodeWord 0x16 8 s
def execSym004 (s : State) : Host.Outcome State Fault Refusal := consumeCodeWord 0x1E 6 s
def execSym005 (s : State) : Host.Outcome State Fault Refusal := consumeCodeWord 0x76 7 s
def execSym006 (s : State) : Host.Outcome State Fault Refusal := consumeCodeWord 0x36 8 s
def execSym007 (s : State) : Host.Outcome State Fault Refusal := consumeCodeWord 0x6E 8 s
def execSym008 (s : State) : Host.Outcome State Fault Refusal := consumeCodeWord 0x4 5 s
def execSym009 (s : State) : Host.Outcome State Fault Refusal := consumeCodeWord 0x4C 7 s
def execSym010 (s : State) : Host.Outcome State Fault Refusal := consumeCodeWord 0x7A 7 s
def execSym011 (s : State) : Host.Outcome State Fault Refusal := consumeCodeWord 0xFE 8 s
def execSym012 (s : State) : Host.Outcome State Fault Refusal := consumeCodeWord 0x72 7 s
def execSym013 (s : State) : Host.Outcome State Fault Refusal := consumeCodeWord 0xE 6 s
def execSym014 (s : State) : Host.Outcome State Fault Refusal := consumeCodeWord 0xF4 8 s
def execSym015 (s : State) : Host.Outcome State Fault Refusal := consumeCodeWord 0xEE 9 s
def execSym016 (s : State) : Host.Outcome State Fault Refusal := consumeCodeWord 0x6A 7 s
def execSym017 (s : State) : Host.Outcome State Fault Refusal := consumeCodeWord 0xA6 9 s
def execSym018 (s : State) : Host.Outcome State Fault Refusal := consumeCodeWord 0x5C 7 s
def execSym019 (s : State) : Host.Outcome State Fault Refusal := consumeCodeWord 0xAA 9 s
def execSym020 (s : State) : Host.Outcome State Fault Refusal := consumeCodeWord 0xF0 8 s
def execSym021 (s : State) : Host.Outcome State Fault Refusal := consumeCodeWord 0x1BE 10 s
def execSym022 (s : State) : Host.Outcome State Fault Refusal := consumeCodeWord 0x34 9 s
def execSym023 (s : State) : Host.Outcome State Fault Refusal := consumeCodeWord 0x7C 9 s
def execSym024 (s : State) : Host.Outcome State Fault Refusal := consumeCodeWord 0x10 7 s
def execSym025 (s : State) : Host.Outcome State Fault Refusal := consumeCodeWord 0x13C 9 s
def execSym026 (s : State) : Host.Outcome State Fault Refusal := consumeCodeWord 0x12 9 s
def execSym027 (s : State) : Host.Outcome State Fault Refusal := consumeCodeWord 0xD0 9 s
def execSym028 (s : State) : Host.Outcome State Fault Refusal := consumeCodeWord 0xA 9 s
def execSym029 (s : State) : Host.Outcome State Fault Refusal := consumeCodeWord 0x66 7 s
def execSym030 (s : State) : Host.Outcome State Fault Refusal := consumeCodeWord 0xCA 8 s
def execSym031 (s : State) : Host.Outcome State Fault Refusal := consumeCodeWord 0x12E 10 s
def execSym032 (s : State) : Host.Outcome State Fault Refusal := consumeCodeWord 0x1AC 9 s
def execSym033 (s : State) : Host.Outcome State Fault Refusal := consumeCodeWord 0x8C 9 s
def execSym034 (s : State) : Host.Outcome State Fault Refusal := consumeCodeWord 0x1BA 9 s
def execSym035 (s : State) : Host.Outcome State Fault Refusal := consumeCodeWord 0x3A6 10 s
def execSym036 (s : State) : Host.Outcome State Fault Refusal := consumeCodeWord 0x30 9 s
def execSym037 (s : State) : Host.Outcome State Fault Refusal := consumeCodeWord 0x8A 9 s
def execSym038 (s : State) : Host.Outcome State Fault Refusal := consumeCodeWord 0x1DA 9 s
def execSym039 (s : State) : Host.Outcome State Fault Refusal := consumeCodeWord 0xB2 9 s
def execSym040 (s : State) : Host.Outcome State Fault Refusal := consumeCodeWord 0x56 7 s
def execSym041 (s : State) : Host.Outcome State Fault Refusal := consumeCodeWord 0x3A 8 s
def execSym042 (s : State) : Host.Outcome State Fault Refusal := consumeCodeWord 0x112 9 s
def execSym043 (s : State) : Host.Outcome State Fault Refusal := consumeCodeWord 0x17E 10 s
def execSym044 (s : State) : Host.Outcome State Fault Refusal := consumeCodeWord 0x1B4 9 s
def execSym045 (s : State) : Host.Outcome State Fault Refusal := consumeCodeWord 0x2B6 10 s
def execSym046 (s : State) : Host.Outcome State Fault Refusal := consumeCodeWord 0x22E 10 s
def execSym047 (s : State) : Host.Outcome State Fault Refusal := consumeCodeWord 0x196 10 s
def execSym048 (s : State) : Host.Outcome State Fault Refusal := consumeCodeWord 0x3AE 10 s
def execSym049 (s : State) : Host.Outcome State Fault Refusal := consumeCodeWord 0x13E 10 s
def execSym050 (s : State) : Host.Outcome State Fault Refusal := consumeCodeWord 0xBE 10 s
def execSym051 (s : State) : Host.Outcome State Fault Refusal := consumeCodeWord 0x35A 10 s
def execSym052 (s : State) : Host.Outcome State Fault Refusal := consumeCodeWord 0x23C 11 s
def execSym053 (s : State) : Host.Outcome State Fault Refusal := consumeCodeWord 0xD1C 12 s
def execSym054 (s : State) : Host.Outcome State Fault Refusal := consumeCodeWord 0x6BE 13 s
def execSym055 (s : State) : Host.Outcome State Fault Refusal := consumeCodeWord 0x38A 12 s
def execSym056 (s : State) : Host.Outcome State Fault Refusal := consumeCodeWord 0x5D4 12 s
def execSym057 (s : State) : Host.Outcome State Fault Refusal := consumeCodeWord 0xE70 12 s
def execSym058 (s : State) : Host.Outcome State Fault Refusal := consumeCodeWord 0xA50 12 s
def execSym059 (s : State) : Host.Outcome State Fault Refusal := consumeCodeWord 0x674 12 s
def execSym060 (s : State) : Host.Outcome State Fault Refusal := consumeCodeWord 0x1C3E 13 s
def execSym061 (s : State) : Host.Outcome State Fault Refusal := consumeCodeWord 0x74 11 s
def execSym062 (s : State) : Host.Outcome State Fault Refusal := consumeCodeWord 0x5A6 13 s
def execSym063 (s : State) : Host.Outcome State Fault Refusal := consumeCodeWord 0x152 12 s
def execSym064 (s : State) : Host.Outcome State Fault Refusal := consumeCodeWord 0x4A 8 s
def execSym065 (s : State) : Host.Outcome State Fault Refusal := consumeCodeWord 0x1BC 9 s
def execSym066 (s : State) : Host.Outcome State Fault Refusal := consumeCodeWord 0x15A 10 s
def execSym067 (s : State) : Host.Outcome State Fault Refusal := consumeCodeWord 0x38C 10 s
def execSym068 (s : State) : Host.Outcome State Fault Refusal := consumeCodeWord 0x19A 10 s
def execSym069 (s : State) : Host.Outcome State Fault Refusal := consumeCodeWord 0x1B2 10 s
def execSym070 (s : State) : Host.Outcome State Fault Refusal := consumeCodeWord 0x3C 10 s
def execSym071 (s : State) : Host.Outcome State Fault Refusal := consumeCodeWord 0x70 10 s
def execSym072 (s : State) : Host.Outcome State Fault Refusal := consumeCodeWord 0x17C 10 s
def execSym073 (s : State) : Host.Outcome State Fault Refusal := consumeCodeWord 0x94 8 s
def execSym074 (s : State) : Host.Outcome State Fault Refusal := consumeCodeWord 0x12A 10 s
def execSym075 (s : State) : Host.Outcome State Fault Refusal := consumeCodeWord 0x1AA 9 s
def execSym076 (s : State) : Host.Outcome State Fault Refusal := consumeCodeWord 0x30C 10 s
def execSym077 (s : State) : Host.Outcome State Fault Refusal := consumeCodeWord 0x1D0 10 s
def execSym078 (s : State) : Host.Outcome State Fault Refusal := consumeCodeWord 0x426 11 s
def execSym079 (s : State) : Host.Outcome State Fault Refusal := consumeCodeWord 0x77E 11 s
def execSym080 (s : State) : Host.Outcome State Fault Refusal := consumeCodeWord 0xAE 11 s
def execSym081 (s : State) : Host.Outcome State Fault Refusal := consumeCodeWord 0x7BE 11 s
def execSym082 (s : State) : Host.Outcome State Fault Refusal := consumeCodeWord 0x3E 11 s
def execSym083 (s : State) : Host.Outcome State Fault Refusal := consumeCodeWord 0x6C 7 s
def execSym084 (s : State) : Host.Outcome State Fault Refusal := consumeCodeWord 0x214 10 s
def execSym085 (s : State) : Host.Outcome State Fault Refusal := consumeCodeWord 0xAC 9 s
def execSym086 (s : State) : Host.Outcome State Fault Refusal := consumeCodeWord 0xBA 11 s
def execSym087 (s : State) : Host.Outcome State Fault Refusal := consumeCodeWord 0x1A 11 s
def execSym088 (s : State) : Host.Outcome State Fault Refusal := consumeCodeWord 0x330 10 s
def execSym089 (s : State) : Host.Outcome State Fault Refusal := consumeCodeWord 0x552 11 s
def execSym090 (s : State) : Host.Outcome State Fault Refusal := consumeCodeWord 0xB8A 13 s
def execSym091 (s : State) : Host.Outcome State Fault Refusal := consumeCodeWord 0x79A 12 s
def execSym092 (s : State) : Host.Outcome State Fault Refusal := consumeCodeWord 0x1CBA 13 s
def execSym093 (s : State) : Host.Outcome State Fault Refusal := consumeCodeWord 0xC74 12 s
def execSym094 (s : State) : Host.Outcome State Fault Refusal := consumeCodeWord 0x77C 13 s
def execSym095 (s : State) : Host.Outcome State Fault Refusal := consumeCodeWord 0x139A 13 s
def execSym096 (s : State) : Host.Outcome State Fault Refusal := consumeCodeWord 0x39A 13 s
def execSym097 (s : State) : Host.Outcome State Fault Refusal := consumeCodeWord 0x51C 12 s
def execSym098 (s : State) : Host.Outcome State Fault Refusal := consumeCodeWord 0x18B6 13 s
def execSym099 (s : State) : Host.Outcome State Fault Refusal := consumeCodeWord 0x11D4 13 s
def execSym100 (s : State) : Host.Outcome State Fault Refusal := consumeCodeWord 0x89C 12 s
def execSym101 (s : State) : Host.Outcome State Fault Refusal := consumeCodeWord 0x9C 12 s
def execSym102 (s : State) : Host.Outcome State Fault Refusal := consumeCodeWord 0x1E74 13 s
def execSym103 (s : State) : Host.Outcome State Fault Refusal := consumeCodeWord 0xE74 13 s
def execSym104 (s : State) : Host.Outcome State Fault Refusal := consumeCodeWord 0x15AE 13 s
def execSym105 (s : State) : Host.Outcome State Fault Refusal := consumeCodeWord 0x5AE 13 s
def execSym106 (s : State) : Host.Outcome State Fault Refusal := consumeCodeWord 0x1B9A 13 s
def execSym107 (s : State) : Host.Outcome State Fault Refusal := consumeCodeWord 0xB9A 13 s
def execSym108 (s : State) : Host.Outcome State Fault Refusal := consumeCodeWord 0x4AE 14 s
def execSym109 (s : State) : Host.Outcome State Fault Refusal := consumeCodeWord 0x474 12 s
def execSym110 (s : State) : Host.Outcome State Fault Refusal := consumeCodeWord 0x1DAE 13 s
def execSym111 (s : State) : Host.Outcome State Fault Refusal := consumeCodeWord 0x8B6 13 s
def execSym112 (s : State) : Host.Outcome State Fault Refusal := consumeCodeWord 0xCBA 13 s
def execSym113 (s : State) : Host.Outcome State Fault Refusal := consumeCodeWord 0x670 12 s
def execSym114 (s : State) : Host.Outcome State Fault Refusal := consumeCodeWord 0x270 11 s
def execSym115 (s : State) : Host.Outcome State Fault Refusal := consumeCodeWord 0xA74 12 s
def execSym116 (s : State) : Host.Outcome State Fault Refusal := consumeCodeWord 0x250 12 s
def execSym117 (s : State) : Host.Outcome State Fault Refusal := consumeCodeWord 0x14B6 13 s
def execSym118 (s : State) : Host.Outcome State Fault Refusal := consumeCodeWord 0x16BE 14 s
def execSym119 (s : State) : Host.Outcome State Fault Refusal := consumeCodeWord 0x5B8A 15 s
def execSym120 (s : State) : Host.Outcome State Fault Refusal := consumeCodeWord 0xDAE 13 s
def execSym121 (s : State) : Host.Outcome State Fault Refusal := consumeCodeWord 0xE50 12 s
def execSym122 (s : State) : Host.Outcome State Fault Refusal := consumeCodeWord 0x1D4 13 s
def execSym123 (s : State) : Host.Outcome State Fault Refusal := consumeCodeWord 0x11AE 13 s
def execSym124 (s : State) : Host.Outcome State Fault Refusal := consumeCodeWord 0x4B6 13 s
def execSym125 (s : State) : Host.Outcome State Fault Refusal := consumeCodeWord 0xB54 12 s
def execSym126 (s : State) : Host.Outcome State Fault Refusal := consumeCodeWord 0x24AE 14 s
def execSym127 (s : State) : Host.Outcome State Fault Refusal := consumeCodeWord 0x171C 13 s
def execSym128 (s : State) : Host.Outcome State Fault Refusal := consumeCodeWord 0x0 5 s
def execSym129 (s : State) : Host.Outcome State Fault Refusal := consumeCodeWord 0x27E 10 s
def execSym130 (s : State) : Host.Outcome State Fault Refusal := consumeCodeWord 0x12C 9 s
def execSym131 (s : State) : Host.Outcome State Fault Refusal := consumeCodeWord 0x37E 11 s
def execSym132 (s : State) : Host.Outcome State Fault Refusal := consumeCodeWord 0x11A 9 s
def execSym133 (s : State) : Host.Outcome State Fault Refusal := consumeCodeWord 0x1EE 11 s
def execSym134 (s : State) : Host.Outcome State Fault Refusal := consumeCodeWord 0x52 9 s
def execSym135 (s : State) : Host.Outcome State Fault Refusal := consumeCodeWord 0x6AE 11 s
def execSym136 (s : State) : Host.Outcome State Fault Refusal := consumeCodeWord 0x5A 9 s
def execSym137 (s : State) : Host.Outcome State Fault Refusal := consumeCodeWord 0x23E 11 s
def execSym138 (s : State) : Host.Outcome State Fault Refusal := consumeCodeWord 0x132 9 s
def execSym139 (s : State) : Host.Outcome State Fault Refusal := consumeCodeWord 0x14 10 s
def execSym140 (s : State) : Host.Outcome State Fault Refusal := consumeCodeWord 0xB4 9 s
def execSym141 (s : State) : Host.Outcome State Fault Refusal := consumeCodeWord 0x47E 11 s
def execSym142 (s : State) : Host.Outcome State Fault Refusal := consumeCodeWord 0x1FC 9 s
def execSym143 (s : State) : Host.Outcome State Fault Refusal := consumeCodeWord 0x18C 10 s
def execSym144 (s : State) : Host.Outcome State Fault Refusal := consumeCodeWord 0x126 9 s
def execSym145 (s : State) : Host.Outcome State Fault Refusal := consumeCodeWord 0x7E 11 s
def execSym146 (s : State) : Host.Outcome State Fault Refusal := consumeCodeWord 0x2C 9 s
def execSym147 (s : State) : Host.Outcome State Fault Refusal := consumeCodeWord 0x130 10 s
def execSym148 (s : State) : Host.Outcome State Fault Refusal := consumeCodeWord 0x6 6 s
def execSym149 (s : State) : Host.Outcome State Fault Refusal := consumeCodeWord 0x18A 10 s
def execSym150 (s : State) : Host.Outcome State Fault Refusal := consumeCodeWord 0x32 9 s
def execSym151 (s : State) : Host.Outcome State Fault Refusal := consumeCodeWord 0x626 11 s
def execSym152 (s : State) : Host.Outcome State Fault Refusal := consumeCodeWord 0x134 9 s
def execSym153 (s : State) : Host.Outcome State Fault Refusal := consumeCodeWord 0x3B2 10 s
def execSym154 (s : State) : Host.Outcome State Fault Refusal := consumeCodeWord 0x2A 9 s
def execSym155 (s : State) : Host.Outcome State Fault Refusal := consumeCodeWord 0x2BA 11 s
def execSym156 (s : State) : Host.Outcome State Fault Refusal := consumeCodeWord 0x1D2 9 s
def execSym157 (s : State) : Host.Outcome State Fault Refusal := consumeCodeWord 0x63E 11 s
def execSym158 (s : State) : Host.Outcome State Fault Refusal := consumeCodeWord 0x19C 9 s
def execSym159 (s : State) : Host.Outcome State Fault Refusal := consumeCodeWord 0x29C 10 s
def execSym160 (s : State) : Host.Outcome State Fault Refusal := consumeCodeWord 0xFC 9 s
def execSym161 (s : State) : Host.Outcome State Fault Refusal := consumeCodeWord 0x21A 10 s
def execSym162 (s : State) : Host.Outcome State Fault Refusal := consumeCodeWord 0x33E 10 s
def execSym163 (s : State) : Host.Outcome State Fault Refusal := consumeCodeWord 0x3EE 10 s
def execSym164 (s : State) : Host.Outcome State Fault Refusal := consumeCodeWord 0x1B6 9 s
def execSym165 (s : State) : Host.Outcome State Fault Refusal := consumeCodeWord 0xC 9 s
def execSym166 (s : State) : Host.Outcome State Fault Refusal := consumeCodeWord 0x96 9 s
def execSym167 (s : State) : Host.Outcome State Fault Refusal := consumeCodeWord 0x10C 10 s
def execSym168 (s : State) : Host.Outcome State Fault Refusal := consumeCodeWord 0xDA 9 s
def execSym169 (s : State) : Host.Outcome State Fault Refusal := consumeCodeWord 0x396 10 s
def execSym170 (s : State) : Host.Outcome State Fault Refusal := consumeCodeWord 0x9A 9 s
def execSym171 (s : State) : Host.Outcome State Fault Refusal := consumeCodeWord 0x3D4 10 s
def execSym172 (s : State) : Host.Outcome State Fault Refusal := consumeCodeWord 0xD2 9 s
def execSym173 (s : State) : Host.Outcome State Fault Refusal := consumeCodeWord 0x3D0 10 s
def execSym174 (s : State) : Host.Outcome State Fault Refusal := consumeCodeWord 0xD4 9 s
def execSym175 (s : State) : Host.Outcome State Fault Refusal := consumeCodeWord 0x3BE 11 s
def execSym176 (s : State) : Host.Outcome State Fault Refusal := consumeCodeWord 0xB0 8 s
def execSym177 (s : State) : Host.Outcome State Fault Refusal := consumeCodeWord 0x54 9 s
def execSym178 (s : State) : Host.Outcome State Fault Refusal := consumeCodeWord 0x170 9 s
def execSym179 (s : State) : Host.Outcome State Fault Refusal := consumeCodeWord 0x2AE 11 s
def execSym180 (s : State) : Host.Outcome State Fault Refusal := consumeCodeWord 0x150 9 s
def execSym181 (s : State) : Host.Outcome State Fault Refusal := consumeCodeWord 0x226 11 s
def execSym182 (s : State) : Host.Outcome State Fault Refusal := consumeCodeWord 0x10A 9 s
def execSym183 (s : State) : Host.Outcome State Fault Refusal := consumeCodeWord 0x72E 11 s
def execSym184 (s : State) : Host.Outcome State Fault Refusal := consumeCodeWord 0x114 9 s
def execSym185 (s : State) : Host.Outcome State Fault Refusal := consumeCodeWord 0x32E 11 s
def execSym186 (s : State) : Host.Outcome State Fault Refusal := consumeCodeWord 0x1C 9 s
def execSym187 (s : State) : Host.Outcome State Fault Refusal := consumeCodeWord 0x5EE 11 s
def execSym188 (s : State) : Host.Outcome State Fault Refusal := consumeCodeWord 0xBC 9 s
def execSym189 (s : State) : Host.Outcome State Fault Refusal := consumeCodeWord 0x2E 10 s
def execSym190 (s : State) : Host.Outcome State Fault Refusal := consumeCodeWord 0x174 9 s
def execSym191 (s : State) : Host.Outcome State Fault Refusal := consumeCodeWord 0x32A 10 s
def execSym192 (s : State) : Host.Outcome State Fault Refusal := consumeCodeWord 0xEBA 12 s
def execSym193 (s : State) : Host.Outcome State Fault Refusal := consumeCodeWord 0xB52 12 s
def execSym194 (s : State) : Host.Outcome State Fault Refusal := consumeCodeWord 0xE3C 12 s
def execSym195 (s : State) : Host.Outcome State Fault Refusal := consumeCodeWord 0xCB6 12 s
def execSym196 (s : State) : Host.Outcome State Fault Refusal := consumeCodeWord 0xC9C 12 s
def execSym197 (s : State) : Host.Outcome State Fault Refusal := consumeCodeWord 0x6BA 12 s
def execSym198 (s : State) : Host.Outcome State Fault Refusal := consumeCodeWord 0x43E 12 s
def execSym199 (s : State) : Host.Outcome State Fault Refusal := consumeCodeWord 0x63C 12 s
def execSym200 (s : State) : Host.Outcome State Fault Refusal := consumeCodeWord 0xABE 12 s
def execSym201 (s : State) : Host.Outcome State Fault Refusal := consumeCodeWord 0xB6 12 s
def execSym202 (s : State) : Host.Outcome State Fault Refusal := consumeCodeWord 0x49C 12 s
def execSym203 (s : State) : Host.Outcome State Fault Refusal := consumeCodeWord 0x650 12 s
def execSym204 (s : State) : Host.Outcome State Fault Refusal := consumeCodeWord 0xF8A 12 s
def execSym205 (s : State) : Host.Outcome State Fault Refusal := consumeCodeWord 0xB7C 12 s
def execSym206 (s : State) : Host.Outcome State Fault Refusal := consumeCodeWord 0xCAE 12 s
def execSym207 (s : State) : Host.Outcome State Fault Refusal := consumeCodeWord 0x352 12 s
def execSym208 (s : State) : Host.Outcome State Fault Refusal := consumeCodeWord 0xF52 12 s
def execSym209 (s : State) : Host.Outcome State Fault Refusal := consumeCodeWord 0x37C 12 s
def execSym210 (s : State) : Host.Outcome State Fault Refusal := consumeCodeWord 0x9A6 12 s
def execSym211 (s : State) : Host.Outcome State Fault Refusal := consumeCodeWord 0x4BA 12 s
def execSym212 (s : State) : Host.Outcome State Fault Refusal := consumeCodeWord 0x850 12 s
def execSym213 (s : State) : Host.Outcome State Fault Refusal := consumeCodeWord 0x1A6 12 s
def execSym214 (s : State) : Host.Outcome State Fault Refusal := consumeCodeWord 0x78A 12 s
def execSym215 (s : State) : Host.Outcome State Fault Refusal := consumeCodeWord 0x354 12 s
def execSym216 (s : State) : Host.Outcome State Fault Refusal := consumeCodeWord 0x11C 11 s
def execSym217 (s : State) : Host.Outcome State Fault Refusal := consumeCodeWord 0x826 12 s
def execSym218 (s : State) : Host.Outcome State Fault Refusal := consumeCodeWord 0x1AE 13 s
def execSym219 (s : State) : Host.Outcome State Fault Refusal := consumeCodeWord 0xF7C 12 s
def execSym220 (s : State) : Host.Outcome State Fault Refusal := consumeCodeWord 0x141A 13 s
def execSym221 (s : State) : Host.Outcome State Fault Refusal := consumeCodeWord 0xF54 12 s
def execSym222 (s : State) : Host.Outcome State Fault Refusal := consumeCodeWord 0x754 12 s
def execSym223 (s : State) : Host.Outcome State Fault Refusal := consumeCodeWord 0xDA6 12 s
def execSym224 (s : State) : Host.Outcome State Fault Refusal := consumeCodeWord 0xB1C 12 s
def execSym225 (s : State) : Host.Outcome State Fault Refusal := consumeCodeWord 0x954 12 s
def execSym226 (s : State) : Host.Outcome State Fault Refusal := consumeCodeWord 0x19AE 13 s
def execSym227 (s : State) : Host.Outcome State Fault Refusal := consumeCodeWord 0x274 12 s
def execSym228 (s : State) : Host.Outcome State Fault Refusal := consumeCodeWord 0x177C 13 s
def execSym229 (s : State) : Host.Outcome State Fault Refusal := consumeCodeWord 0x50 12 s
def execSym230 (s : State) : Host.Outcome State Fault Refusal := consumeCodeWord 0xEBE 12 s
def execSym231 (s : State) : Host.Outcome State Fault Refusal := consumeCodeWord 0x41A 13 s
def execSym232 (s : State) : Host.Outcome State Fault Refusal := consumeCodeWord 0x154 12 s
def execSym233 (s : State) : Host.Outcome State Fault Refusal := consumeCodeWord 0x9AE 13 s
def execSym234 (s : State) : Host.Outcome State Fault Refusal := consumeCodeWord 0xDD4 12 s
def execSym235 (s : State) : Host.Outcome State Fault Refusal := consumeCodeWord 0xD54 12 s
def execSym236 (s : State) : Host.Outcome State Fault Refusal := consumeCodeWord 0xC3E 13 s
def execSym237 (s : State) : Host.Outcome State Fault Refusal := consumeCodeWord 0x26 12 s
def execSym238 (s : State) : Host.Outcome State Fault Refusal := consumeCodeWord 0xC50 12 s
def execSym239 (s : State) : Host.Outcome State Fault Refusal := consumeCodeWord 0x554 12 s
def execSym240 (s : State) : Host.Outcome State Fault Refusal := consumeCodeWord 0x36BE 14 s
def execSym241 (s : State) : Host.Outcome State Fault Refusal := consumeCodeWord 0x71C 13 s
def execSym242 (s : State) : Host.Outcome State Fault Refusal := consumeCodeWord 0xF9A 12 s
def execSym243 (s : State) : Host.Outcome State Fault Refusal := consumeCodeWord 0x752 12 s
def execSym244 (s : State) : Host.Outcome State Fault Refusal := consumeCodeWord 0x952 12 s
def execSym245 (s : State) : Host.Outcome State Fault Refusal := consumeCodeWord 0x450 12 s
def execSym246 (s : State) : Host.Outcome State Fault Refusal := consumeCodeWord 0x31C 12 s
def execSym247 (s : State) : Host.Outcome State Fault Refusal := consumeCodeWord 0x12BE 13 s
def execSym248 (s : State) : Host.Outcome State Fault Refusal := consumeCodeWord 0x3B8A 14 s
def execSym249 (s : State) : Host.Outcome State Fault Refusal := consumeCodeWord 0x2BE 13 s
def execSym250 (s : State) : Host.Outcome State Fault Refusal := consumeCodeWord 0x14AE 13 s
def execSym251 (s : State) : Host.Outcome State Fault Refusal := consumeCodeWord 0xF1C 12 s
def execSym252 (s : State) : Host.Outcome State Fault Refusal := consumeCodeWord 0x15A6 13 s
def execSym253 (s : State) : Host.Outcome State Fault Refusal := consumeCodeWord 0x9D4 12 s
def execSym254 (s : State) : Host.Outcome State Fault Refusal := consumeCodeWord 0xC1A 12 s
def execSym255 (s : State) : Host.Outcome State Fault Refusal := consumeCodeWord 0x92 8 s
def execSymEos (s : State) : Host.Outcome State Fault Refusal := consumeCodeWord 0x1B8A 15 s

end Sys2Proof.Machine
end

