-- ==== Sys2Proof/Machine/Compress.lean ====
section
/-! DEFINITION. COMPRESS, the bit encoder (41_encoder), on `ACC` and `BC` as the pseudocode of R140 has it. -/

namespace Sys2Proof.Machine

/-- `ACC <- ACC | (zext_39(CODE[s].bits) << BC)` and `BC <- BC + CODE[s].len` (R142, R91). -/
def State.addCode (c : CodeEntry) (s : State) : State :=
  { s with acc := s.acc ||| (c.bits.zeroExtend 39 <<< s.bc.toNat), bc := s.bc + c.len }

/-- `ACC <- ACC >> 8` and `BC <- BC - 8` (R140). -/
def State.dropByte (s : State) : State := { s with acc := s.acc >>> 8, bc := s.bc - 8 }

/-- `n` turns of the flush loop of `PUT`: `ACC[7:0]` goes out, oldest bits first (R142). -/
def flush : Nat → State → Host.Outcome State Fault Refusal
  | 0, s => .next s
  | n + 1, s => andThen (emitByte (s.acc.extractLsb' 0 8) s) fun s1 => flush n s1.dropByte

/-- `PUT(s)` (R140, R142). The loop `while BC >= 8` makes `BC div 8` turns. -/
def put (sym : Nat) (s : State) : Host.Outcome State Fault Refusal :=
  match s.codeAt sym with
  | none => .fault .noSuchCode
  | some c => flush ((s.addCode c).bc.toNat / 8) (s.addCode c)

/-- `PUT` of each input byte in index order (R142). -/
def putAll : List Byte → State → Host.Outcome State Fault Refusal
  | [], s => .next s
  | b :: bs, s => andThen (put b.toNat s) (putAll bs)

/-- The last byte, when bits are pending: `ACC[7:0]`, whose bits `BC` to 7 are the pad (R144). -/
def padLast (s : State) : Host.Outcome State Fault Refusal :=
  if s.bc = 0 then .next s else emitByte (s.acc.extractLsb' 0 8) s

/-- `COMPRESS` (R140): not ready (R145), start (R141), the bytes (R142), EOS once (R143), pad and end (R144). -/
def execCompress (s : State) : Host.Outcome State Fault Refusal :=
  if s.ready then
    match s.inputBytes with
    | none => .fault .unspecifiedByte
    | some bs =>
      andThen (putAll bs (startEncoder s)) fun s1 =>
      andThen (put Config.eos.toNat s1) fun s2 =>
      andThen (padLast s2) fun s3 => .next (releaseEncoder (succeed s3))
  else .next (raise .configurationError s)

end Sys2Proof.Machine
end

