-- ==== Sys2Proof/Machine/Init.lean ====
section
/-! DEFINITION. INIT, the tree builder (40_tree_builder): selection of the two smallest live nodes (R112, R113), merge
(R114), root (R115), code assignment (R116), and the command (R110, R117, R119). Frequencies are compared and added as
naturals, which R120 allows. -/

namespace Sys2Proof.Machine

/-- A member of `LIVE` (R31): a node index with its frequency. -/
structure LiveNode where
  n : Nat
  f : Nat
  deriving DecidableEq, Repr

/-- The order on nodes (R113): lower frequency first; among equal frequencies the node created later, the higher index. -/
def smaller (a b : LiveNode) : Bool := Nat.blt a.f b.f || (Nat.beq a.f b.f && Nat.blt b.n a.n)

/-- `min over LIVE`, and `LIVE` without it (R112). -/
def takeMin : List LiveNode → Option (LiveNode × List LiveNode)
  | [] => none
  | x :: xs =>
    match takeMin xs with
    | none => some (x, [])
    | some (m, rest) => if smaller x m then some (x, xs) else some (m, x :: rest)

/-- The new internal node (R114): `c0` the first selected, `c1` the second, frequency their sum. -/
def mergeNode (a b : LiveNode) : Node :=
  { f := BitVec.ofNat 32 (a.f + b.f), c0 := BitVec.ofNat 10 a.n, c1 := BitVec.ofNat 10 b.n }

/-- The selection loop (R112, R114) for `k` iterations from `NN = nn`: the internal nodes in creation order, and `LIVE` at
the end. Each iteration takes the two smallest and adds their parent. -/
def mergeLoop : Nat → Nat → List LiveNode → List Node × List LiveNode
  | 0, _, live => ([], live)
  | k + 1, nn, live =>
    match takeMin live with
    | none => ([], live)
    | some (a, live1) =>
      match takeMin live1 with
      | none => ([], live)
      | some (b, live2) =>
        let r := mergeLoop k (nn + 1) (⟨nn, a.f + b.f⟩ :: live2)
        (mergeNode a b :: r.1, r.2)

/-- `LIVE <- {i, i+1, …}`, the leaves with their frequencies (R111). -/
def liveFrom (i : Nat) : List Freq → List LiveNode
  | [] => []
  | f :: fs => ⟨i, f.toNat⟩ :: liveFrom (i + 1) fs

/-- `CODE[n] <- { bits: bits, len: d }` (R116). -/
def writeCode (n : NodeIdx) (bits : BitVec 32) (d : Nat) (code : List CodeEntry) : List CodeEntry :=
  code.set n.toNat ⟨bits, BitVec.ofNat 6 d⟩

/-- `ASSIGN(n, bits, d)` (R116): a leaf writes its entry, an internal node goes on to both children. The first argument is
32 less the depth `d`, and no answer means a leaf deeper than 32, for which `CODE` has no room (R9). -/
def assign (node : List Node) : Nat → NodeIdx → BitVec 32 → Nat → List CodeEntry → Option (List CodeEntry)
  | 0, n, bits, d, code => if n.toNat ≤ 256 then some (writeCode n bits d code) else none
  | room + 1, n, bits, d, code =>
    if n.toNat ≤ 256 then some (writeCode n bits d code)
    else
      match node[n.toNat]? with
      | none => none
      | some nd =>
        match assign node room nd.c0 bits (d + 1) code with
        | none => none
        | some code' => assign node room nd.c1 (bits ||| (1#32 <<< d)) (d + 1) code'

/-- The tables INIT builds from a `FREQ` of 257 entries (R111 to R116), or nothing where the `FREQ` is outside the range
R9 gives: its sum reaches 2^32, or its tree has a leaf deeper than 32. Before the walk `CODE` is blank; every entry is
written once (R116). -/
def buildTables (freq : List Freq) : Option Tables :=
  if 2 ^ 32 ≤ (freq.map BitVec.toNat).sum then none
  else
    let r := mergeLoop (Config.nsym - 1) Config.nsym (liveFrom 0 freq)
    let node := leaves freq ++ r.1
    match r.2 with
    | [root] =>
      match assign node Config.codeMax (BitVec.ofNat 10 root.n) 0 0 (List.replicate Config.nsym ⟨0, 0⟩) with
      | some code => some { node := node, root := BitVec.ofNat 10 root.n, code := code }
      | none => none
    | _ => none

/-- `INIT` (R110). `ConfigurationError` when and only when `FREQ_LEN != 257`, with `READY <- 0` first (R119); otherwise the
tables, `READY <- 1`, `RES <- OK` (R117). A `FREQ` outside the range of R9 is refused (log 9). -/
def execInit (s : State) : Host.Outcome State Fault Refusal :=
  if s.inst.freq.length = Config.nsym then
    match buildTables s.inst.freq with
    | some t => .next (releaseBuilder (succeed (loadTables t s)))
    | none => .refused .unsupportedFreq
  else .next (raise .configurationError { s with ready := false })

end Sys2Proof.Machine
end

