-- ==== Sys2Proof/Machine/Dispatch.lean ====
section
/-! DEFINITION. One arm per constructor of Instr, each a direct call of its meaning. -/

namespace Sys2Proof.Machine

def exec (i : Instr) (s : State) : Host.Outcome State Fault Refusal :=
  match i with
  | .init => Sys2Proof.Machine.execInit s
  | .compress => Sys2Proof.Machine.execCompress s
  | .decompress => Sys2Proof.Machine.execDecompress s
  | .sym000 => Sys2Proof.Machine.execSym000 s
  | .sym001 => Sys2Proof.Machine.execSym001 s
  | .sym002 => Sys2Proof.Machine.execSym002 s
  | .sym003 => Sys2Proof.Machine.execSym003 s
  | .sym004 => Sys2Proof.Machine.execSym004 s
  | .sym005 => Sys2Proof.Machine.execSym005 s
  | .sym006 => Sys2Proof.Machine.execSym006 s
  | .sym007 => Sys2Proof.Machine.execSym007 s
  | .sym008 => Sys2Proof.Machine.execSym008 s
  | .sym009 => Sys2Proof.Machine.execSym009 s
  | .sym010 => Sys2Proof.Machine.execSym010 s
  | .sym011 => Sys2Proof.Machine.execSym011 s
  | .sym012 => Sys2Proof.Machine.execSym012 s
  | .sym013 => Sys2Proof.Machine.execSym013 s
  | .sym014 => Sys2Proof.Machine.execSym014 s
  | .sym015 => Sys2Proof.Machine.execSym015 s
  | .sym016 => Sys2Proof.Machine.execSym016 s
  | .sym017 => Sys2Proof.Machine.execSym017 s
  | .sym018 => Sys2Proof.Machine.execSym018 s
  | .sym019 => Sys2Proof.Machine.execSym019 s
  | .sym020 => Sys2Proof.Machine.execSym020 s
  | .sym021 => Sys2Proof.Machine.execSym021 s
  | .sym022 => Sys2Proof.Machine.execSym022 s
  | .sym023 => Sys2Proof.Machine.execSym023 s
  | .sym024 => Sys2Proof.Machine.execSym024 s
  | .sym025 => Sys2Proof.Machine.execSym025 s
  | .sym026 => Sys2Proof.Machine.execSym026 s
  | .sym027 => Sys2Proof.Machine.execSym027 s
  | .sym028 => Sys2Proof.Machine.execSym028 s
  | .sym029 => Sys2Proof.Machine.execSym029 s
  | .sym030 => Sys2Proof.Machine.execSym030 s
  | .sym031 => Sys2Proof.Machine.execSym031 s
  | .sym032 => Sys2Proof.Machine.execSym032 s
  | .sym033 => Sys2Proof.Machine.execSym033 s
  | .sym034 => Sys2Proof.Machine.execSym034 s
  | .sym035 => Sys2Proof.Machine.execSym035 s
  | .sym036 => Sys2Proof.Machine.execSym036 s
  | .sym037 => Sys2Proof.Machine.execSym037 s
  | .sym038 => Sys2Proof.Machine.execSym038 s
  | .sym039 => Sys2Proof.Machine.execSym039 s
  | .sym040 => Sys2Proof.Machine.execSym040 s
  | .sym041 => Sys2Proof.Machine.execSym041 s
  | .sym042 => Sys2Proof.Machine.execSym042 s
  | .sym043 => Sys2Proof.Machine.execSym043 s
  | .sym044 => Sys2Proof.Machine.execSym044 s
  | .sym045 => Sys2Proof.Machine.execSym045 s
  | .sym046 => Sys2Proof.Machine.execSym046 s
  | .sym047 => Sys2Proof.Machine.execSym047 s
  | .sym048 => Sys2Proof.Machine.execSym048 s
  | .sym049 => Sys2Proof.Machine.execSym049 s
  | .sym050 => Sys2Proof.Machine.execSym050 s
  | .sym051 => Sys2Proof.Machine.execSym051 s
  | .sym052 => Sys2Proof.Machine.execSym052 s
  | .sym053 => Sys2Proof.Machine.execSym053 s
  | .sym054 => Sys2Proof.Machine.execSym054 s
  | .sym055 => Sys2Proof.Machine.execSym055 s
  | .sym056 => Sys2Proof.Machine.execSym056 s
  | .sym057 => Sys2Proof.Machine.execSym057 s
  | .sym058 => Sys2Proof.Machine.execSym058 s
  | .sym059 => Sys2Proof.Machine.execSym059 s
  | .sym060 => Sys2Proof.Machine.execSym060 s
  | .sym061 => Sys2Proof.Machine.execSym061 s
  | .sym062 => Sys2Proof.Machine.execSym062 s
  | .sym063 => Sys2Proof.Machine.execSym063 s
  | .sym064 => Sys2Proof.Machine.execSym064 s
  | .sym065 => Sys2Proof.Machine.execSym065 s
  | .sym066 => Sys2Proof.Machine.execSym066 s
  | .sym067 => Sys2Proof.Machine.execSym067 s
  | .sym068 => Sys2Proof.Machine.execSym068 s
  | .sym069 => Sys2Proof.Machine.execSym069 s
  | .sym070 => Sys2Proof.Machine.execSym070 s
  | .sym071 => Sys2Proof.Machine.execSym071 s
  | .sym072 => Sys2Proof.Machine.execSym072 s
  | .sym073 => Sys2Proof.Machine.execSym073 s
  | .sym074 => Sys2Proof.Machine.execSym074 s
  | .sym075 => Sys2Proof.Machine.execSym075 s
  | .sym076 => Sys2Proof.Machine.execSym076 s
  | .sym077 => Sys2Proof.Machine.execSym077 s
  | .sym078 => Sys2Proof.Machine.execSym078 s
  | .sym079 => Sys2Proof.Machine.execSym079 s
  | .sym080 => Sys2Proof.Machine.execSym080 s
  | .sym081 => Sys2Proof.Machine.execSym081 s
  | .sym082 => Sys2Proof.Machine.execSym082 s
  | .sym083 => Sys2Proof.Machine.execSym083 s
  | .sym084 => Sys2Proof.Machine.execSym084 s
  | .sym085 => Sys2Proof.Machine.execSym085 s
  | .sym086 => Sys2Proof.Machine.execSym086 s
  | .sym087 => Sys2Proof.Machine.execSym087 s
  | .sym088 => Sys2Proof.Machine.execSym088 s
  | .sym089 => Sys2Proof.Machine.execSym089 s
  | .sym090 => Sys2Proof.Machine.execSym090 s
  | .sym091 => Sys2Proof.Machine.execSym091 s
  | .sym092 => Sys2Proof.Machine.execSym092 s
  | .sym093 => Sys2Proof.Machine.execSym093 s
  | .sym094 => Sys2Proof.Machine.execSym094 s
  | .sym095 => Sys2Proof.Machine.execSym095 s
  | .sym096 => Sys2Proof.Machine.execSym096 s
  | .sym097 => Sys2Proof.Machine.execSym097 s
  | .sym098 => Sys2Proof.Machine.execSym098 s
  | .sym099 => Sys2Proof.Machine.execSym099 s
  | .sym100 => Sys2Proof.Machine.execSym100 s
  | .sym101 => Sys2Proof.Machine.execSym101 s
  | .sym102 => Sys2Proof.Machine.execSym102 s
  | .sym103 => Sys2Proof.Machine.execSym103 s
  | .sym104 => Sys2Proof.Machine.execSym104 s
  | .sym105 => Sys2Proof.Machine.execSym105 s
  | .sym106 => Sys2Proof.Machine.execSym106 s
  | .sym107 => Sys2Proof.Machine.execSym107 s
  | .sym108 => Sys2Proof.Machine.execSym108 s
  | .sym109 => Sys2Proof.Machine.execSym109 s
  | .sym110 => Sys2Proof.Machine.execSym110 s
  | .sym111 => Sys2Proof.Machine.execSym111 s
  | .sym112 => Sys2Proof.Machine.execSym112 s
  | .sym113 => Sys2Proof.Machine.execSym113 s
  | .sym114 => Sys2Proof.Machine.execSym114 s
  | .sym115 => Sys2Proof.Machine.execSym115 s
  | .sym116 => Sys2Proof.Machine.execSym116 s
  | .sym117 => Sys2Proof.Machine.execSym117 s
  | .sym118 => Sys2Proof.Machine.execSym118 s
  | .sym119 => Sys2Proof.Machine.execSym119 s
  | .sym120 => Sys2Proof.Machine.execSym120 s
  | .sym121 => Sys2Proof.Machine.execSym121 s
  | .sym122 => Sys2Proof.Machine.execSym122 s
  | .sym123 => Sys2Proof.Machine.execSym123 s
  | .sym124 => Sys2Proof.Machine.execSym124 s
  | .sym125 => Sys2Proof.Machine.execSym125 s
  | .sym126 => Sys2Proof.Machine.execSym126 s
  | .sym127 => Sys2Proof.Machine.execSym127 s
  | .sym128 => Sys2Proof.Machine.execSym128 s
  | .sym129 => Sys2Proof.Machine.execSym129 s
  | .sym130 => Sys2Proof.Machine.execSym130 s
  | .sym131 => Sys2Proof.Machine.execSym131 s
  | .sym132 => Sys2Proof.Machine.execSym132 s
  | .sym133 => Sys2Proof.Machine.execSym133 s
  | .sym134 => Sys2Proof.Machine.execSym134 s
  | .sym135 => Sys2Proof.Machine.execSym135 s
  | .sym136 => Sys2Proof.Machine.execSym136 s
  | .sym137 => Sys2Proof.Machine.execSym137 s
  | .sym138 => Sys2Proof.Machine.execSym138 s
  | .sym139 => Sys2Proof.Machine.execSym139 s
  | .sym140 => Sys2Proof.Machine.execSym140 s
  | .sym141 => Sys2Proof.Machine.execSym141 s
  | .sym142 => Sys2Proof.Machine.execSym142 s
  | .sym143 => Sys2Proof.Machine.execSym143 s
  | .sym144 => Sys2Proof.Machine.execSym144 s
  | .sym145 => Sys2Proof.Machine.execSym145 s
  | .sym146 => Sys2Proof.Machine.execSym146 s
  | .sym147 => Sys2Proof.Machine.execSym147 s
  | .sym148 => Sys2Proof.Machine.execSym148 s
  | .sym149 => Sys2Proof.Machine.execSym149 s
  | .sym150 => Sys2Proof.Machine.execSym150 s
  | .sym151 => Sys2Proof.Machine.execSym151 s
  | .sym152 => Sys2Proof.Machine.execSym152 s
  | .sym153 => Sys2Proof.Machine.execSym153 s
  | .sym154 => Sys2Proof.Machine.execSym154 s
  | .sym155 => Sys2Proof.Machine.execSym155 s
  | .sym156 => Sys2Proof.Machine.execSym156 s
  | .sym157 => Sys2Proof.Machine.execSym157 s
  | .sym158 => Sys2Proof.Machine.execSym158 s
  | .sym159 => Sys2Proof.Machine.execSym159 s
  | .sym160 => Sys2Proof.Machine.execSym160 s
  | .sym161 => Sys2Proof.Machine.execSym161 s
  | .sym162 => Sys2Proof.Machine.execSym162 s
  | .sym163 => Sys2Proof.Machine.execSym163 s
  | .sym164 => Sys2Proof.Machine.execSym164 s
  | .sym165 => Sys2Proof.Machine.execSym165 s
  | .sym166 => Sys2Proof.Machine.execSym166 s
  | .sym167 => Sys2Proof.Machine.execSym167 s
  | .sym168 => Sys2Proof.Machine.execSym168 s
  | .sym169 => Sys2Proof.Machine.execSym169 s
  | .sym170 => Sys2Proof.Machine.execSym170 s
  | .sym171 => Sys2Proof.Machine.execSym171 s
  | .sym172 => Sys2Proof.Machine.execSym172 s
  | .sym173 => Sys2Proof.Machine.execSym173 s
  | .sym174 => Sys2Proof.Machine.execSym174 s
  | .sym175 => Sys2Proof.Machine.execSym175 s
  | .sym176 => Sys2Proof.Machine.execSym176 s
  | .sym177 => Sys2Proof.Machine.execSym177 s
  | .sym178 => Sys2Proof.Machine.execSym178 s
  | .sym179 => Sys2Proof.Machine.execSym179 s
  | .sym180 => Sys2Proof.Machine.execSym180 s
  | .sym181 => Sys2Proof.Machine.execSym181 s
  | .sym182 => Sys2Proof.Machine.execSym182 s
  | .sym183 => Sys2Proof.Machine.execSym183 s
  | .sym184 => Sys2Proof.Machine.execSym184 s
  | .sym185 => Sys2Proof.Machine.execSym185 s
  | .sym186 => Sys2Proof.Machine.execSym186 s
  | .sym187 => Sys2Proof.Machine.execSym187 s
  | .sym188 => Sys2Proof.Machine.execSym188 s
  | .sym189 => Sys2Proof.Machine.execSym189 s
  | .sym190 => Sys2Proof.Machine.execSym190 s
  | .sym191 => Sys2Proof.Machine.execSym191 s
  | .sym192 => Sys2Proof.Machine.execSym192 s
  | .sym193 => Sys2Proof.Machine.execSym193 s
  | .sym194 => Sys2Proof.Machine.execSym194 s
  | .sym195 => Sys2Proof.Machine.execSym195 s
  | .sym196 => Sys2Proof.Machine.execSym196 s
  | .sym197 => Sys2Proof.Machine.execSym197 s
  | .sym198 => Sys2Proof.Machine.execSym198 s
  | .sym199 => Sys2Proof.Machine.execSym199 s
  | .sym200 => Sys2Proof.Machine.execSym200 s
  | .sym201 => Sys2Proof.Machine.execSym201 s
  | .sym202 => Sys2Proof.Machine.execSym202 s
  | .sym203 => Sys2Proof.Machine.execSym203 s
  | .sym204 => Sys2Proof.Machine.execSym204 s
  | .sym205 => Sys2Proof.Machine.execSym205 s
  | .sym206 => Sys2Proof.Machine.execSym206 s
  | .sym207 => Sys2Proof.Machine.execSym207 s
  | .sym208 => Sys2Proof.Machine.execSym208 s
  | .sym209 => Sys2Proof.Machine.execSym209 s
  | .sym210 => Sys2Proof.Machine.execSym210 s
  | .sym211 => Sys2Proof.Machine.execSym211 s
  | .sym212 => Sys2Proof.Machine.execSym212 s
  | .sym213 => Sys2Proof.Machine.execSym213 s
  | .sym214 => Sys2Proof.Machine.execSym214 s
  | .sym215 => Sys2Proof.Machine.execSym215 s
  | .sym216 => Sys2Proof.Machine.execSym216 s
  | .sym217 => Sys2Proof.Machine.execSym217 s
  | .sym218 => Sys2Proof.Machine.execSym218 s
  | .sym219 => Sys2Proof.Machine.execSym219 s
  | .sym220 => Sys2Proof.Machine.execSym220 s
  | .sym221 => Sys2Proof.Machine.execSym221 s
  | .sym222 => Sys2Proof.Machine.execSym222 s
  | .sym223 => Sys2Proof.Machine.execSym223 s
  | .sym224 => Sys2Proof.Machine.execSym224 s
  | .sym225 => Sys2Proof.Machine.execSym225 s
  | .sym226 => Sys2Proof.Machine.execSym226 s
  | .sym227 => Sys2Proof.Machine.execSym227 s
  | .sym228 => Sys2Proof.Machine.execSym228 s
  | .sym229 => Sys2Proof.Machine.execSym229 s
  | .sym230 => Sys2Proof.Machine.execSym230 s
  | .sym231 => Sys2Proof.Machine.execSym231 s
  | .sym232 => Sys2Proof.Machine.execSym232 s
  | .sym233 => Sys2Proof.Machine.execSym233 s
  | .sym234 => Sys2Proof.Machine.execSym234 s
  | .sym235 => Sys2Proof.Machine.execSym235 s
  | .sym236 => Sys2Proof.Machine.execSym236 s
  | .sym237 => Sys2Proof.Machine.execSym237 s
  | .sym238 => Sys2Proof.Machine.execSym238 s
  | .sym239 => Sys2Proof.Machine.execSym239 s
  | .sym240 => Sys2Proof.Machine.execSym240 s
  | .sym241 => Sys2Proof.Machine.execSym241 s
  | .sym242 => Sys2Proof.Machine.execSym242 s
  | .sym243 => Sys2Proof.Machine.execSym243 s
  | .sym244 => Sys2Proof.Machine.execSym244 s
  | .sym245 => Sys2Proof.Machine.execSym245 s
  | .sym246 => Sys2Proof.Machine.execSym246 s
  | .sym247 => Sys2Proof.Machine.execSym247 s
  | .sym248 => Sys2Proof.Machine.execSym248 s
  | .sym249 => Sys2Proof.Machine.execSym249 s
  | .sym250 => Sys2Proof.Machine.execSym250 s
  | .sym251 => Sys2Proof.Machine.execSym251 s
  | .sym252 => Sys2Proof.Machine.execSym252 s
  | .sym253 => Sys2Proof.Machine.execSym253 s
  | .sym254 => Sys2Proof.Machine.execSym254 s
  | .sym255 => Sys2Proof.Machine.execSym255 s
  | .symEos => Sys2Proof.Machine.execSymEos s

end Sys2Proof.Machine
end

