-- ==== Sys2Proof/Machine/DefaultTables.lean ====
section
/-! DEFINITION. The tables INIT builds from the default `FREQ`, written out from the spec: the 256 merges of
95_test_vectors section 6 and the code table of R99. `Laws/DefaultTables.lean` proves that INIT builds exactly these. -/

namespace Sys2Proof.Machine

/-! The 256 merges, `NODE[257]` to `NODE[512]`, 32 a piece: frequency, `c0`, `c1`. -/

def defaultMerges0 : List Node := [
  ⟨6, 256, 119⟩, ⟨12, 257, 248⟩, ⟨15, 108, 126⟩, ⟨17, 118, 240⟩,
  ⟨18, 122, 99⟩, ⟨20, 241, 127⟩, ⟨20, 103, 102⟩, ⟨21, 94, 228⟩,
  ⟨23, 90, 258⟩, ⟨24, 231, 220⟩, ⟨24, 107, 106⟩, ⟨24, 96, 95⟩,
  ⟨26, 112, 92⟩, ⟨27, 62, 252⟩, ⟨28, 124, 117⟩, ⟨28, 111, 98⟩,
  ⟨30, 259, 250⟩, ⟨30, 233, 226⟩, ⟨30, 218, 123⟩, ⟨30, 120, 110⟩,
  ⟨30, 105, 104⟩, ⟨32, 249, 247⟩, ⟨32, 236, 60⟩, ⟨33, 54, 260⟩,
  ⟨34, 245, 238⟩, ⟨34, 229, 212⟩, ⟨34, 203, 121⟩, ⟨34, 116, 58⟩,
  ⟨36, 261, 253⟩, ⟨36, 239, 235⟩, ⟨36, 232, 225⟩, ⟨36, 222, 221⟩]

def defaultMerges1 : List Node := [
  ⟨36, 215, 125⟩, ⟨36, 113, 57⟩, ⟨37, 56, 234⟩, ⟨38, 227, 115⟩,
  ⟨38, 109, 93⟩, ⟨39, 59, 263⟩, ⟨40, 262, 251⟩, ⟨40, 246, 224⟩,
  ⟨40, 202, 196⟩, ⟨40, 101, 100⟩, ⟨40, 97, 53⟩, ⟨42, 264, 219⟩,
  ⟨42, 209, 205⟩, ⟨42, 199, 194⟩, ⟨43, 63, 244⟩, ⟨44, 243, 208⟩,
  ⟨44, 207, 193⟩, ⟨45, 55, 265⟩, ⟨46, 214, 204⟩, ⟨48, 268, 267⟩,
  ⟨48, 266, 254⟩, ⟨49, 91, 242⟩, ⟨51, 211, 269⟩, ⟨52, 237, 217⟩,
  ⟨52, 197, 192⟩, ⟨54, 270, 223⟩, ⟨54, 213, 210⟩, ⟨55, 201, 272⟩,
  ⟨56, 271, 195⟩, ⟨60, 277, 276⟩, ⟨60, 275, 274⟩, ⟨60, 273, 206⟩]

def defaultMerges2 : List Node := [
  ⟨62, 198, 279⟩, ⟨64, 278, 200⟩, ⟨66, 280, 230⟩, ⟨68, 284, 283⟩,
  ⟨68, 282, 281⟩, ⟨71, 114, 290⟩, ⟨72, 289, 288⟩, ⟨72, 287, 286⟩,
  ⟨73, 285, 291⟩, ⟨75, 61, 293⟩, ⟨77, 292, 294⟩, ⟨79, 216, 299⟩,
  ⟨80, 298, 297⟩, ⟨80, 296, 295⟩, ⟨83, 52, 302⟩, ⟨84, 301, 300⟩,
  ⟨86, 303, 89⟩, ⟨88, 305, 304⟩, ⟨91, 306, 307⟩, ⟨94, 87, 309⟩,
  ⟨97, 308, 310⟩, ⟨101, 86, 311⟩, ⟨103, 155, 313⟩, ⟨104, 312, 78⟩,
  ⟨106, 181, 151⟩, ⟨108, 315, 314⟩, ⟨111, 316, 317⟩, ⟨114, 185, 183⟩,
  ⟨119, 80, 320⟩, ⟨120, 319, 318⟩, ⟨120, 179, 135⟩, ⟨121, 133, 187⟩]

def defaultMerges3 : List Node := [
  ⟨123, 82, 321⟩, ⟨125, 137, 157⟩, ⟨130, 322, 323⟩, ⟨132, 175, 81⟩,
  ⟨134, 145, 141⟩, ⟨136, 325, 324⟩, ⟨136, 131, 79⟩, ⟨137, 77, 173⟩,
  ⟨138, 147, 88⟩, ⟨141, 71, 326⟩, ⟨142, 139, 84⟩, ⟨144, 328, 327⟩,
  ⟨146, 329, 171⟩, ⟨152, 330, 331⟩, ⟨154, 167, 76⟩, ⟨156, 143, 67⟩,
  ⟨159, 332, 334⟩, ⟨160, 333, 159⟩, ⟨164, 70, 335⟩, ⟨167, 72, 336⟩,
  ⟨174, 337, 338⟩, ⟨177, 69, 153⟩, ⟨181, 149, 339⟩, ⟨183, 74, 191⟩,
  ⟨188, 340, 161⟩, ⟨192, 68, 341⟩, ⟨199, 66, 51⟩, ⟨204, 342, 343⟩,
  ⟨210, 344, 345⟩, ⟨216, 346, 35⟩, ⟨219, 47, 169⟩, ⟨222, 347, 45⟩]

def defaultMerges4 : List Node := [
  ⟨225, 189, 46⟩, ⟨227, 31, 348⟩, ⟨239, 349, 351⟩, ⟨240, 350, 48⟩,
  ⟨243, 352, 163⟩, ⟨248, 353, 354⟩, ⟨254, 49, 162⟩, ⟨259, 50, 355⟩,
  ⟨263, 21, 356⟩, ⟨268, 357, 129⟩, ⟨270, 43, 359⟩, ⟨272, 358, 180⟩,
  ⟨273, 27, 360⟩, ⟨275, 36, 361⟩, ⟨282, 362, 178⟩, ⟨284, 363, 184⟩,
  ⟨287, 177, 364⟩, ⟨291, 174, 365⟩, ⟨293, 22, 152⟩, ⟨299, 140, 44⟩,
  ⟨304, 366, 190⟩, ⟨307, 165, 367⟩, ⟨310, 33, 368⟩, ⟨313, 146, 130⟩,
  ⟨314, 85, 32⟩, ⟨317, 186, 369⟩, ⟨323, 370, 158⟩, ⟨328, 371, 25⟩,
  ⟨332, 188, 65⟩, ⟨333, 23, 372⟩, ⟨334, 160, 142⟩, ⟨335, 26, 42⟩]

def defaultMerges5 : List Node := [
  ⟨344, 134, 373⟩, ⟨348, 172, 156⟩, ⟨349, 150, 138⟩, ⟨353, 39, 374⟩,
  ⟨359, 28, 182⟩, ⟨361, 37, 375⟩, ⟨364, 154, 376⟩, ⟨373, 19, 75⟩,
  ⟨376, 377, 132⟩, ⟨382, 170, 378⟩, ⟨393, 136, 379⟩, ⟨402, 168, 38⟩,
  ⟨408, 380, 34⟩, ⟨421, 381, 144⟩, ⟨428, 17, 382⟩, ⟨437, 166, 383⟩,
  ⟨445, 384, 164⟩, ⟨452, 385, 386⟩, ⟨479, 387, 388⟩, ⟨483, 15, 389⟩,
  ⟨502, 390, 391⟩, ⟨522, 392, 393⟩, ⟨538, 394, 395⟩, ⟨545, 396, 397⟩,
  ⟨552, 398, 176⟩, ⟨565, 399, 20⟩, ⟨568, 400, 73⟩, ⟨578, 401, 402⟩,
  ⟨592, 403, 404⟩, ⟨608, 405, 14⟩, ⟨617, 406, 407⟩, ⟨627, 408, 409⟩]

def defaultMerges6 : List Node := [
  ⟨640, 410, 411⟩, ⟨660, 412, 413⟩, ⟨667, 414, 415⟩, ⟨670, 416, 255⟩,
  ⟨692, 417, 418⟩, ⟨702, 419, 420⟩, ⟨720, 421, 422⟩, ⟨725, 64, 30⟩,
  ⟨737, 423, 424⟩, ⟨758, 425, 426⟩, ⟨795, 427, 428⟩, ⟨812, 41, 429⟩,
  ⟨849, 430, 431⟩, ⟨868, 3, 432⟩, ⟨889, 6, 433⟩, ⟨931, 434, 435⟩,
  ⟨965, 7, 436⟩, ⟨1024, 437, 438⟩, ⟨1080, 439, 11⟩, ⟨1088, 24, 440⟩,
  ⟨1117, 441, 442⟩, ⟨1146, 443, 444⟩, ⟨1200, 445, 446⟩, ⟨1234, 447, 9⟩,
  ⟨1265, 448, 83⟩, ⟨1287, 449, 18⟩, ⟨1327, 450, 451⟩, ⟨1362, 452, 453⟩,
  ⟨1417, 454, 12⟩, ⟨1445, 455, 456⟩, ⟨1491, 457, 16⟩, ⟨1553, 458, 459⟩]

def defaultMerges7 : List Node := [
  ⟨1650, 460, 10⟩, ⟨1708, 461, 29⟩, ⟨1740, 462, 40⟩, ⟨1808, 463, 5⟩,
  ⟨1896, 464, 465⟩, ⟨2104, 466, 467⟩, ⟨2205, 468, 469⟩, ⟨2346, 470, 471⟩,
  ⟨2499, 472, 473⟩, ⟨2614, 474, 475⟩, ⟨2779, 476, 477⟩, ⟨2936, 478, 479⟩,
  ⟨3203, 480, 481⟩, ⟨3382, 148, 482⟩, ⟨3548, 483, 484⟩, ⟨3710, 13, 485⟩,
  ⟨4054, 4, 486⟩, ⟨4378, 128, 487⟩, ⟨4590, 8, 488⟩, ⟨5113, 489, 490⟩,
  ⟨5436, 2, 491⟩, ⟨6139, 492, 493⟩, ⟨6930, 494, 495⟩, ⟨7764, 496, 497⟩,
  ⟨8923, 498, 1⟩, ⟨9703, 499, 500⟩, ⟨11575, 501, 502⟩, ⟨14694, 503, 504⟩,
  ⟨18626, 505, 506⟩, ⟨26269, 507, 508⟩, ⟨44895, 509, 510⟩, ⟨1073786719, 511, 0⟩]

/-- `NODE` of the default instance: the leaves of R111, then the merges in creation order (R114). -/
def defaultNode : List Node :=
  leaves Config.defaultFreq ++ (defaultMerges0 ++ defaultMerges1 ++ defaultMerges2 ++ defaultMerges3 ++
    defaultMerges4 ++ defaultMerges5 ++ defaultMerges6 ++ defaultMerges7)

/-- `CODE` of the default instance (R99). -/
def defaultCode : List CodeEntry := codeRows.map fun r => ⟨BitVec.ofNat 32 r.word, BitVec.ofNat 6 r.len⟩

/-- The tables of the default instance. -/
def defaultTables : Tables := { node := defaultNode, root := 512, code := defaultCode }

end Sys2Proof.Machine
end

