-- ==== Sys2Proof/Machine/Host.lean ====
section
/-! DEFINITION. What the step needs around the meanings: the host's queue, the fetch of the decoder's next bits, and how a
word is placed where the step fetches. -/

namespace Sys2Proof.Machine

/-- The state with these host actions still to come. -/
def State.withHost (s : State) (h : List HostAction) : State := { s with host := h }

/-- The host's write of `IN` and `IN_LEN`: refused beyond `IN_MAX` (R217, log 10). -/
def hostInput (bs : List Byte) (s : State) : Host.Outcome State Fault Refusal :=
  if fits bs.length s.inst.inMax then .next (hostWriteIn bs s) else .refused .inputTooLong

/-- The input bits not yet consumed (R162). -/
def State.remainingBits (s : State) : Option (List Bool) := s.inputBits.map (List.drop s.k)

/-- A DECOMPRESS after its first lines (R161), seen in progress (log 1). -/
def beginDecode (s : State) : State := { startDecoder s with phase := .decoding }

/-- The tables of a `FREQ`: those of the default instance as written out, others built. `Laws/DefaultTables.lean` proves the
two agree; this one is quick to evaluate. -/
def tablesOf (freq : List Freq) : Option Tables :=
  if freq = Config.defaultFreq then some defaultTables else buildTables freq

/-- A state a DECOMPRESS can be in progress in: with the tables built (R212). -/
def State.initialised (s : State) : State :=
  if s.ready then s
  else
    match tablesOf s.inst.freq with
    | some t => loadTables t s
    | none => s

/-- The command word `c` as the host's next action. -/
def State.placeCommand (s : State) (c : CmdWord) : State :=
  { s with phase := .idle, host := .writeCmd c :: s.host }

/-- The bytes `bs` as the input of a DECOMPRESS in progress that has consumed nothing. -/
def State.placeStream (s : State) (bs : List Byte) : State := beginDecode (hostWriteIn bs s.initialised)

end Sys2Proof.Machine
end

