-- ==== Sys2Proof/Machine/Step.lean ====
section
/-! DEFINITION. One step of CORE. When nothing runs it takes the next host action (R227, R229); a command runs whole (D1).
When a DECOMPRESS is seen in progress it takes the next code word of the stream (log 1). -/

namespace Sys2Proof.Machine

/-- One step. With no host action left an idle CORE stays as it is (log 3). -/
def step (s : State) : Host.Outcome State Fault Refusal :=
  match s.phase, s.host with
  | .idle, [] => .next s
  | .idle, .reset :: rest => .next (hostReset (s.withHost rest))
  | .idle, .writeIn bs :: rest => hostInput bs (s.withHost rest)
  | .idle, .writeCmd c :: rest =>
    match decodeCommand c with
    | .ok i => exec i (s.withHost rest)
    | .error _ => .refused .reservedCommand
  | .decoding, _ =>
    match s.remainingBits with
    | none => .fault .unspecifiedByte
    | some bits =>
      match decodeCodeWord bits with
      | .ok (i, _) => exec i s
      | .error _ => endOfInput (decodeBits bits s)

/-- An opcode-table word where `step` fetches next (log 19): a command as the host's next write to `CMD`, a code word at the
front of the input of a DECOMPRESS in progress, with the tables built if they are not. -/
def State.withFetchWord (s : State) (nbits w : Nat) : State :=
  if isCommandWord nbits w then s.placeCommand (BitVec.ofNat 2 w) else s.placeStream (layout nbits w)

end Sys2Proof.Machine
end

