-- ==== Sys2Proof/WellFormed.lean ====
section
/-! DEFINITION. What it takes for an encoding of CORE to be well formed: a command word is not the reserved one (R93), a
code word is 1 to 32 bits long and has no bit beyond its length (R27, R84). An instruction carries no operand, so it is
well formed exactly when its row is. -/

namespace Sys2Proof

/-- A command word with a meaning (R80, R93). -/
def CmdWord.wf (c : CmdWord) : Bool := c != 0

/-- A `CODE` entry as R84 says it: `1 <= len <= 32`, no bit at or above `len`. -/
def CodeEntry.wf (c : CodeEntry) : Bool :=
  decide (1 ≤ c.len.toNat) && decide (c.len.toNat ≤ Config.codeMax) && decide (c.bits.toNat < 2 ^ c.len.toNat)

/-- A row of the opcode table: a command row is a well-formed 2-bit command word, a code-word row a well-formed code. -/
def Row.wf (r : Row) : Bool :=
  if r.instr.isCommand then r.len == 2 && decide (r.word < 4) && CmdWord.wf (BitVec.ofNat 2 r.word)
  else decide (1 ≤ r.len) && decide (r.len ≤ Config.codeMax) && decide (r.word < 2 ^ r.len)

/-- An instruction is well formed when it has a row of its own and the row is well formed. -/
def Instr.wf (i : Instr) : Bool := (encodeRow i).instr == i && (encodeRow i).wf

end Sys2Proof
end

