-- ==== Sys2Proof/Safety.lean ====
section
/-! DEFINITION. The terms the statements use: the range of a `FREQ` (R9), the invariant of the states a run reaches, what
the tree and the code table guarantee (R25, R27), and the fields a command leaves alone (R65). -/

namespace Sys2Proof.Machine

/-! ## The range of a `FREQ` (R9) -/

/-- `NODE` as R111 to R114 build it from a `FREQ`, whatever its depth. -/
def builtNode (freq : List Freq) : List Node :=
  leaves freq ++ (mergeLoop (Config.nsym - 1) Config.nsym (liveFrom 0 freq)).1

/-- The depths of the leaves under node `n`, itself at depth `d`; `fuel` bounds the number of levels. -/
def leafDepths (node : List Node) : Nat → NodeIdx → Nat → List Nat
  | 0, _, d => [d]
  | fuel + 1, n, d =>
    if n.toNat ≤ 256 then [d]
    else
      match node[n.toNat]? with
      | some nd => leafDepths node fuel nd.c0 (d + 1) ++ leafDepths node fuel nd.c1 (d + 1)
      | none => [d]

/-- A `FREQ` inside the range this hardware supports, the three conditions of R9. No tree of 513 nodes has more levels. -/
structure FreqInRange (freq : List Freq) : Prop where
  length : freq.length = Config.nsym
  sum : (freq.map BitVec.toNat).sum < 2 ^ 32
  depth : ∀ d ∈ leafDepths (builtNode freq) Config.nnode 512 0, d ≤ Config.codeMax

/-! ## The tree (R25) and the selection (R112 to R114) -/

/-- The children of `NODE[257] .. NODE[n-1]`, each node's `c0` before its `c1`. -/
def childrenBelow (node : List Node) (n : Nat) : List Nat :=
  ((node.take n).drop 257).flatMap fun nd => [nd.c0.toNat, nd.c1.toNat]

/-- `LIVE` when `NODE[n]` is about to be made: the nodes made and not yet combined (R12, R112). -/
def isLive (node : List Node) (n m : Nat) : Prop := m < n ∧ m ∉ childrenBelow node n

/-- Node `m` is smaller than node `n` in the order of R113. -/
def smallerNode (node : List Node) (m n : Nat) : Prop :=
  ∃ x y : Node, node[m]? = some x ∧ node[n]? = some y ∧ (x.f.toNat < y.f.toNat ∨ (x.f.toNat = y.f.toNat ∧ n < m))

/-- R25 on the arena. -/
structure FullTree (node : List Node) (root : NodeIdx) : Prop where
  length : node.length = Config.nnode
  root : root = 512
  /-- every index 0 to 511 occurs exactly once among the children, 512 in none -/
  children : ∀ i, (childrenBelow node Config.nnode).count i = if i < 512 then 1 else 0
  /-- a child is older than its parent and not `NULL`, and frequencies add up -/
  internal : ∀ n, 257 ≤ n → n ≤ 512 → ∃ nd x y, node[n]? = some nd ∧ nd.c0.toNat < n ∧ nd.c1.toNat < n ∧
    nd.c0 ≠ Config.null ∧ nd.c1 ≠ Config.null ∧ node[nd.c0.toNat]? = some x ∧ node[nd.c1.toNat]? = some y ∧
    nd.f.toNat = x.f.toNat + y.f.toNat

/-! ## The code table (R27) -/

/-- Where the branch bits `bs` lead from node `n` (R85): the node reached, if every branch is there. -/
def follow (node : List Node) : List Bool → NodeIdx → Option NodeIdx
  | [], n => some n
  | b :: bs, n =>
    match node[n.toNat]? with
    | none => none
    | some nd => if branch b nd = Config.null then none else follow node bs (branch b nd)

/-- No code word is a prefix of another (R27, R121). -/
def PrefixFree (code : List CodeEntry) : Prop :=
  ∀ (x y : Nat) (cx cy : CodeEntry), code[x]? = some cx → code[y]? = some cy → x ≠ y → ¬ (CodeEntry.stream cx <+: CodeEntry.stream cy)

/-- The Kraft sum of R27, scaled by `2^32` to stay in the naturals. -/
def kraftSum (code : List CodeEntry) : Nat := (code.map fun c => 2 ^ (Config.codeMax - c.len.toNat)).sum

/-! ## The invariant -/

/-- A buffer that holds a specified value at every index below `n` and nowhere else. -/
def Memory.filled (m : Memory) (n : Nat) : Prop := m.map Prod.fst = List.range n

/-- What a DECOMPRESS in progress satisfies at a code-word boundary (log 1): the tables are built, the walk stands on an
internal node (R163), no more bits are consumed than there are (R165). -/
structure DecodingOk (s : State) : Prop where
  ready : s.ready = true
  internal : 257 ≤ s.cur.toNat ∧ s.cur.toNat ≤ 512
  consumed : s.k ≤ 8 * s.inLen

/-- The invariant. `built` is the meaning of `READY` (R42): the tables are those INIT builds from `FREQ`. -/
structure State.Inv (s : State) : Prop where
  nodeLength : s.node.length = Config.nnode
  codeLength : s.code.length = Config.nsym
  built : s.ready = true → s.inst.freq.length = Config.nsym ∧
    buildTables s.inst.freq = some { node := s.node, root := s.root, code := s.code }
  inFilled : s.inp.filled s.inLen
  outFilled : s.out.filled s.outLen
  inFits : fits s.inLen s.inst.inMax = true
  outFits : fits s.outLen s.inst.outMax = true
  decoding : s.phase = .decoding → DecodingOk s

/-! ## Runs and frames -/

/-- The outcome is a next state. -/
def answersNext (o : Host.Outcome State Fault Refusal) : Prop := ∃ t, o = .next t

/-- The outcome is no fault. -/
def noFault (o : Host.Outcome State Fault Refusal) : Prop := ∀ e, o ≠ .fault e

/-- The instance, the tables, `READY` and the input are the same (R65: what COMPRESS and DECOMPRESS never write). -/
def sameTablesAndInput (s t : State) : Prop :=
  t.inst = s.inst ∧ t.node = s.node ∧ t.root = s.root ∧ t.code = s.code ∧ t.ready = s.ready ∧
    t.inp = s.inp ∧ t.inLen = s.inLen

/-- The builder's registers are the same (R31). -/
def sameBuilder (s t : State) : Prop := t.live = s.live ∧ t.nn = s.nn

/-- The encoder's registers are the same (R32). -/
def sameEncoder (s t : State) : Prop := t.acc = s.acc ∧ t.bc = s.bc

/-- The decoder's registers are the same (R33). -/
def sameDecoder (s t : State) : Prop := t.cur = s.cur ∧ t.k = s.k

/-- Every byte of `IN` and of `OUT` reads as before, and so do their lengths. -/
def sameBuffers (s t : State) : Prop :=
  (∀ a, t.inp.read a = s.inp.read a) ∧ t.inLen = s.inLen ∧ (∀ a, t.out.read a = s.out.read a) ∧ t.outLen = s.outLen

/-- The code word of a symbol as the decoder takes it in the default instance: `len` bits (R99). -/
def codeLength (i : Instr) : Nat := (encodeRow i).len

end Sys2Proof.Machine
end

