-- ==== Sys2Proof/Certificates/Slice0/Obligations.lean ====
section
/-! DEFINITION. The statements for the provers. Where a statement speaks of the states a run reaches it takes the invariant
`State.Inv` as a premise; `InvariantAtReset` and `InvariantKept` state that invariant. `Config.free…` values occur in no
statement: what is unspecified after a command is left out of every conclusion. -/

open Sys2Proof Sys2Proof.Machine

/-! ## Reset and the host's moves -/

/-- The values R44 gives for reset; `FREQ` is the instance's default (R8). -/
def Obligations.ResetValues : Prop :=
  State.reset.ready = false ∧ State.reset.readReady = 0 ∧ State.reset.res = .ok ∧ State.reset.readRes = 0 ∧
  State.reset.outLen = 0 ∧ State.reset.inLen = 0 ∧ State.reset.inst = Config.defaultInstance

/-- R210: a reset by the host leaves `READY`, `RES`, `OUT_LEN`, `IN_LEN` at 0 and the instance untouched. The queue the
reset is taken from is the MODEL's, log 3, and the phase, log 1. -/
def Obligations.HostResetStep : Prop :=
  ∀ (s : State) (rest : List HostAction), s.phase = .idle → s.host = .reset :: rest →
    ∃ t, step s = .next t ∧ t.ready = false ∧ t.res = .ok ∧ t.outLen = 0 ∧ t.inLen = 0 ∧ t.inst = s.inst ∧
      t.node.length = Config.nnode ∧ t.code.length = Config.nsym ∧ t.phase = .idle ∧ t.host = rest

/-- R29, R229: the host's write of `IN` and `IN_LEN` puts the bytes there and changes nothing else; R217: beyond `IN_MAX` it is
refused. -/
def Obligations.HostWriteInStep : Prop :=
  ∀ (s : State) (bs : List Byte) (rest : List HostAction), s.phase = .idle → s.host = .writeIn bs :: rest →
    (fits bs.length s.inst.inMax = true → ∃ t, step s = .next t ∧ t.inLen = bs.length ∧
      (∀ i, i < bs.length → t.inp.read i = bs[i]?) ∧ t.inputBytes = some bs ∧
      t = { s with inp := t.inp, inLen := t.inLen, host := rest }) ∧
    (fits bs.length s.inst.inMax = false → step s = .refused .inputTooLong)

/-- An idle CORE with no host action left stays as it is. MODEL's choice, log 3. -/
def Obligations.IdleStepChangesNothing : Prop :=
  ∀ s : State, s.phase = .idle → s.host = [] → step s = .next s

/-- R80: a write of a command's code to `CMD` runs that command, on the state with the write taken off the queue, which is the
MODEL's, log 3. -/
def Obligations.StepRunsTheDecodedCommand : Prop :=
  ∀ (s : State) (c : CmdWord) (rest : List HostAction) (i : Instr), s.phase = .idle → s.host = .writeCmd c :: rest →
    decodeCommand c = .ok i → step s = exec i { s with host := rest }

/-- R90, R162: a decoder in progress takes the code word that stands at bit `K` of the input. MODEL's phase, log 1. -/
def Obligations.StepRunsTheDecodedCodeWord : Prop :=
  ∀ (s : State) (bits rest : List Bool) (i : Instr), s.phase = .decoding → s.inputBits = some bits →
    decodeCodeWord (bits.drop s.k) = .ok (i, rest) → step s = exec i s

/-- R93: `CMD = 0b00` is reserved, and the model refuses it. -/
def Obligations.ReservedCommandIsRefused : Prop :=
  ∀ (s : State) (rest : List HostAction), s.phase = .idle → s.host = .writeCmd 0 :: rest →
    step s = .refused .reservedCommand

/-! ## Encodings -/

/-- R80 and a few code words of R99, bit by bit: the command values, and the words of `h`, byte 0, byte 119 and EOS. -/
def Obligations.WrittenOutWordsDecode : Prop :=
  decodeCommand 0b01 = .ok .init ∧ decodeCommand 0b10 = .ok .compress ∧ decodeCommand 0b11 = .ok .decompress ∧
  decodeCommand 0b00 = .error .reservedCommand ∧
  decodeCodeWord [true] = .ok (.sym000, []) ∧
  decodeCodeWord [false, true, true, true, false, true, false, true, true, false, true, false, true] = .ok (.sym104, []) ∧
  decodeCodeWord [false, true, false, true, false, false, false, true, true, true, false, true, true, false, true] =
    .ok (.sym119, []) ∧
  decodeCodeWord [false, true, false, true, false, false, false, true, true, true, false, true, true, false, false] =
    .ok (.symEos, [])

/-- Decoding an encoded instruction gives it back: every command from its `CMD` value, every code word from its bits with any
bits behind it (R86, R90). -/
def Obligations.DecodeOfEncodeIsTheInstruction : Prop :=
  (∀ i : Instr, i.isCommand = true → decodeCommand (encodeCommand i) = .ok i) ∧
  (∀ (i : Instr) (rest : List Bool), i.isCommand = false → decodeCodeWord (encodeBits i ++ rest) = .ok (i, rest))

/-- What a decoder accepts is the encoding of what it answers. -/
def Obligations.DecodedBitsAreTheEncoding : Prop :=
  (∀ (c : CmdWord) (i : Instr), decodeCommand c = .ok i → i.isCommand = true ∧ encodeCommand i = c) ∧
  (∀ (bits rest : List Bool) (i : Instr), decodeCodeWord bits = .ok (i, rest) →
    i.isCommand = false ∧ bits = encodeBits i ++ rest)

/-- R95: no bit string is an illegal code word. Fifteen bits, the longest code word (R27), always begin with one. -/
def Obligations.LongBitStringsAlwaysDecode : Prop :=
  ∀ bits : List Bool, 15 ≤ bits.length → ∃ p, decodeCodeWord bits = .ok p

/-- R97: a window begins with a code word exactly when `w & mask = match`, and at most one row matches. -/
def Obligations.MaskAndMatchSelectOneRow : Prop :=
  (∀ r ∈ codeRows, ∀ n w : Nat, r.len ≤ n →
    ((∃ rest, dropPrefix r.bits (bitsLsb n w) = some rest) ↔ w &&& (2 ^ r.len - 1) = r.word)) ∧
  (∀ r ∈ codeRows, ∀ r' ∈ codeRows, ∀ w : Nat,
    w &&& (2 ^ r.len - 1) = r.word → w &&& (2 ^ r'.len - 1) = r'.word → r = r')

/-- R61: bit `k` of a packed bitstream is bit `k mod 8` of byte `k div 8`. R88: packing fills up with zero bits to a whole
byte, and adds no byte to an aligned stream. -/
def Obligations.PackedStreamHoldsTheBits : Prop :=
  (∀ (bs : List Byte) (k : Nat) (b : Byte), bs[k / 8]? = some b → (bytesBits bs)[k]? = some (b.getLsbD (k % 8))) ∧
  (∀ B : List Bool, bytesBits (packBits B) = B ++ List.replicate ((8 - B.length % 8) % 8) false) ∧
  (∀ B : List Bool, (packBits B).length = (B.length + 7) / 8)

/-! ## INIT -/

/-- INIT on a `FREQ` in the range of R9 ends `OK` with `READY = 1` and `ROOT = 512`, its tables are those of R111 to R116, and
it leaves the instance, the buffers and the other units' registers as they were (R110, R115, R117). -/
def Obligations.InitCompletes : Prop :=
  ∀ s : State, FreqInRange s.inst.freq →
    ∃ t, exec .init s = .next t ∧ t.ready = true ∧ t.res = .ok ∧ t.root = 512 ∧
      t.node.length = Config.nnode ∧ t.code.length = Config.nsym ∧
      buildTables s.inst.freq = some { node := t.node, root := t.root, code := t.code } ∧
      t.inst = s.inst ∧ sameBuffers s t ∧ sameEncoder s t ∧ sameDecoder s t ∧ t.phase = s.phase ∧ t.host = s.host

/-- R9, D15: on a `FREQ` of the right length outside the range INIT has no meaning and the model refuses it. -/
def Obligations.InitOutOfRangeIsRefused : Prop :=
  ∀ s : State, s.inst.freq.length = Config.nsym → ¬ FreqInRange s.inst.freq → exec .init s = .refused .unsupportedFreq

/-- R119: with a wrong length INIT writes no table, sets `READY <- 0` and raises `ConfigurationError`, every time; with 257
entries it cannot fail. -/
def Obligations.InitWrongLengthIsConfigurationError : Prop :=
  (∀ s : State, s.inst.freq.length ≠ Config.nsym →
    ∃ t, exec .init s = .next t ∧
      t = { s with ready := false, res := .configurationError, outLen := 0, out := t.out }) ∧
  (∀ s t : State, s.inst.freq.length = Config.nsym → exec .init s = .next t → t.res = .ok)

/-- R111: one leaf per symbol, EOS included, with its frequency and no children, whatever the frequency. -/
def Obligations.InitMakesALeafPerSymbol : Prop :=
  ∀ s : State, FreqInRange s.inst.freq →
    ∃ t, exec .init s = .next t ∧ ∀ sym, sym < Config.nsym →
      ∃ f, s.inst.freq[sym]? = some f ∧ t.node[sym]? = some { f := f, c0 := Config.null, c1 := Config.null }

/-- R112, R113, R114: node `n` is made of the two smallest live nodes in the order of R113, the smallest as `c0`, and its
frequency is their sum. -/
def Obligations.InitMergesTheTwoSmallest : Prop :=
  ∀ s : State, FreqInRange s.inst.freq →
    ∃ t, exec .init s = .next t ∧ t.node.length = Config.nnode ∧ ∀ n, 257 ≤ n → n ≤ 512 →
      ∃ nd x y, t.node[n]? = some nd ∧ t.node[nd.c0.toNat]? = some x ∧ t.node[nd.c1.toNat]? = some y ∧
        isLive t.node n nd.c0.toNat ∧ isLive t.node n nd.c1.toNat ∧ nd.c0 ≠ nd.c1 ∧
        nd.f.toNat = x.f.toNat + y.f.toNat ∧
        (∀ m, isLive t.node n m → m ≠ nd.c0.toNat → smallerNode t.node nd.c0.toNat m) ∧
        (∀ m, isLive t.node n m → m ≠ nd.c0.toNat → m ≠ nd.c1.toNat → smallerNode t.node nd.c1.toNat m)

/-- R116: the code word of each symbol is the path from the root to its leaf, 0 for an edge to a `c0` and 1 for one to a `c1`;
`len` is its number of edges, and the bits above it are 0. -/
def Obligations.InitAssignsEachLeafItsPath : Prop :=
  ∀ s : State, FreqInRange s.inst.freq →
    ∃ t, exec .init s = .next t ∧ ∀ sym, sym < Config.nsym →
      ∃ c p, t.code[sym]? = some c ∧ follow t.node p t.root = some (BitVec.ofNat 10 sym) ∧ c.len.toNat = p.length ∧
        (∀ d, d < p.length → p[d]? = some (c.bits.getLsbD d)) ∧ ∀ d, p.length ≤ d → c.bits.getLsbD d = false

/-- R25: with `READY = 1` the arena is a full tree: every index 0 to 511 is a child exactly once, 512 never, children are older
than their parent and never `NULL`, frequencies add up. -/
def Obligations.ReadyTreeIsFull : Prop :=
  ∀ s : State, s.Inv → s.ready = true → FullTree s.node s.root

/-- R27: with `READY = 1` the code is prefix-free, every symbol has one entry, `1 <= len <= 32`, `bits < 2^len`, the Kraft sum
is exactly 1, and each code word is the path from `ROOT` to its leaf; with the default `FREQ` lengths run from 1 (symbol 0)
to 15 (symbols 119 and 256). -/
def Obligations.ReadyCodeTableIsPrefixFree : Prop :=
  ∀ s : State, s.Inv → s.ready = true →
    PrefixFree s.code ∧ s.code.length = Config.nsym ∧ kraftSum s.code = 2 ^ Config.codeMax ∧
    (∀ sym, sym < Config.nsym → ∃ c, s.code[sym]? = some c ∧ 1 ≤ c.len.toNat ∧ c.len.toNat ≤ Config.codeMax ∧
      c.bits.toNat < 2 ^ c.len.toNat ∧ follow s.node (CodeEntry.stream c) s.root = some (BitVec.ofNat 10 sym)) ∧
    (s.inst.freq = Config.defaultFreq → ∀ (sym : Nat) (c : CodeEntry), s.code[sym]? = some c →
      c.len.toNat ≤ 15 ∧ (c.len.toNat = 1 ↔ sym = 0) ∧ (c.len.toNat = 15 ↔ sym = 119 ∨ sym = 256))

/-- R122: INIT after INIT rewrites every table entry with the value it had, and two instances with the same `FREQ` hold the
same tables and compress the same input alike (with the same `OUT_MAX`). -/
def Obligations.InitIsDeterministic : Prop :=
  (∀ s t : State, s.inst.freq.length = Config.nsym → exec .init s = .next t →
    ∃ u, exec .init t = .next u ∧ u.node = t.node ∧ u.root = t.root ∧ u.code = t.code ∧ u.ready = t.ready) ∧
  (∀ s s' t t' : State, s.inst.freq = s'.inst.freq → s.inst.freq.length = Config.nsym →
    exec .init s = .next t → exec .init s' = .next t' → t.node = t'.node ∧ t.root = t'.root ∧ t.code = t'.code ∧
    ∀ (d : List Byte) (u : State), s.inst.outMax = s'.inst.outMax → exec .compress (hostWriteIn d t) = .next u →
      ∃ u', exec .compress (hostWriteIn d t') = .next u' ∧ u'.res = u.res ∧ u'.outLen = u.outLen ∧
        u'.outputBytes = u.outputBytes)

/-- R125, R99: from reset, INIT builds the tree of 95_test_vectors section 6 and the code table of R99. -/
def Obligations.InitFromResetBuildsTheDefaultTables : Prop :=
  ∃ t, exec .init State.reset = .next t ∧ t.ready = true ∧ t.node = defaultNode ∧ t.root = 512 ∧ t.code = defaultCode

/-! ## COMPRESS -/

/-- R145: with `READY = 0` COMPRESS raises `ConfigurationError`, `OUT_LEN <- 0`, and stops. -/
def Obligations.CompressNotReady : Prop :=
  ∀ s : State, s.ready = false →
    ∃ t, exec .compress s = .next t ∧ t = { s with res := .configurationError, outLen := 0, out := t.out }

/-- R140, R87, R88: COMPRESS writes `P(B(IN))` to `OUT` and ends `OK`, on any built tables; everything but `OUT`, `OUT_LEN`,
`RES` and the encoder's registers is as before (R65). `draws` is the model's own counter (log 6). -/
def Obligations.CompressWritesThePackedBitString : Prop :=
  ∀ (s : State) (d : List Byte), s.Inv → s.ready = true → s.inputBytes = some d →
    fits (packBits (bitString s.code d)).length s.inst.outMax = true →
    ∃ t, exec .compress s = .next t ∧ t.res = .ok ∧ t.outLen = (packBits (bitString s.code d)).length ∧
      t.outputBytes = some (packBits (bitString s.code d)) ∧
      t = { s with res := .ok, out := t.out, outLen := t.outLen, acc := t.acc, bc := t.bc, draws := t.draws }

/-- R148: `OUT_LEN` is the sum of the code lengths of the input bytes and EOS, in whole bytes, and at least 1. -/
def Obligations.CompressLengthIsTheBitTotal : Prop :=
  ∀ (s t : State) (d : List Byte), s.Inv → s.ready = true → s.inputBytes = some d → exec .compress s = .next t →
    1 ≤ t.outLen ∧
    t.outLen = ((d.map fun b => (codeOf s.code b.toNat).length).sum + (codeOf s.code Config.eos.toNat).length + 7) / 8

/-- R217: room for `ceil(32 * (IN_LEN + 1) / 8)` bytes always suffices for COMPRESS; with too little room the run is refused. -/
def Obligations.CompressCapacity : Prop :=
  (∀ s : State, s.Inv → s.ready = true → fits ((32 * (s.inLen + 1) + 7) / 8) s.inst.outMax = true →
    answersNext (exec .compress s)) ∧
  (∀ (s : State) (d : List Byte), s.Inv → s.ready = true → s.inputBytes = some d →
    fits (packBits (bitString s.code d)).length s.inst.outMax = false → exec .compress s = .refused .outputOverflow)

/-- R150, R146: the source's vector, and the empty input, on the default tables. -/
def Obligations.CompressReferenceVectors : Prop :=
  (∃ t, exec .compress (hostWriteIn [104, 101, 108, 108, 111, 32, 119, 111, 114, 108, 100]
      (loadTables defaultTables State.reset)) = .next t ∧ t.res = .ok ∧ t.outLen = 20 ∧
    t.outputBytes = some [174, 149, 19, 92, 9, 87, 194, 22, 177, 86, 220, 218, 34, 56, 185, 18, 156, 168, 184, 1]) ∧
  (∃ t, exec .compress (hostWriteIn [] (loadTables defaultTables State.reset)) = .next t ∧ t.res = .ok ∧
    t.outLen = 2 ∧ t.outputBytes = some [138, 27])

/-- R149: COMPRESS is a function of `READY`, `CODE` and the input: on two states that agree on them (and on `OUT_MAX`) it gives
the same result, whatever else differs. -/
def Obligations.CompressDependsOnCodeAndInputOnly : Prop :=
  ∀ s s' t : State, s'.ready = s.ready → s'.code = s.code → s'.inp = s.inp → s'.inLen = s.inLen →
    s'.inst.outMax = s.inst.outMax → exec .compress s = .next t →
    ∃ t', exec .compress s' = .next t' ∧ t'.res = t.res ∧ t'.outLen = t.outLen ∧ t'.outputBytes = t.outputBytes

/-! ## DECOMPRESS -/

/-- R167: with `READY = 0` DECOMPRESS raises `ConfigurationError`, `OUT_LEN <- 0`, and stops. `phase` is the MODEL's field, log
1. -/
def Obligations.DecompressNotReady : Prop :=
  ∀ s : State, s.ready = false →
    ∃ t, exec .decompress s = .next t ∧
      t = { s with res := .configurationError, outLen := 0, out := t.out, phase := .idle }

/-- R160, R164, R169: an input whose bits begin with `B(d)` decodes to `d` whatever follows: pad bits of any value, trailing
bytes, or nothing. `phase` (log 1) and `draws` (log 6) are the MODEL's fields. -/
def Obligations.DecompressStopsAtEos : Prop :=
  ∀ (s : State) (d : List Byte) (rest : List Bool), s.Inv → s.ready = true →
    s.inputBits = some (bitString s.code d ++ rest) → fits d.length s.inst.outMax = true →
    ∃ t, exec .decompress s = .next t ∧ t.res = .ok ∧ t.outLen = d.length ∧ t.outputBytes = some d ∧
      t = { s with res := .ok, out := t.out, outLen := t.outLen, cur := t.cur, k := t.k, phase := .idle, draws := t.draws }

/-- R168: what COMPRESS wrote, copied to `IN` by the host, decompresses to the original input. -/
def Obligations.RoundTrip : Prop :=
  ∀ (s t : State) (b : List Byte), s.Inv → s.ready = true → s.inputBytes = some b →
    fits b.length s.inst.outMax = true → exec .compress s = .next t →
    ∃ c u, t.outputBytes = some c ∧ exec .decompress (hostWriteIn c t) = .next u ∧ u.res = .ok ∧
      u.outLen = b.length ∧ u.outputBytes = some b

/-- R165: an input that ends before an EOS code word does, however many bytes it spells and wherever the walk stands, raises
`TruncatedInput` with `OUT_LEN <- 0`; the empty input is one. `phase` (log 1) and `draws` (log 6) are the MODEL's fields. -/
def Obligations.DecompressTruncatedInput : Prop :=
  ∀ (s : State) (d : List Byte) (bits : List Bool), s.Inv → s.ready = true → s.inputBits = some bits →
    bits <+: bitString s.code d → bits ≠ bitString s.code d → fits d.length s.inst.outMax = true →
    ∃ t, exec .decompress s = .next t ∧ t.res = .truncatedInput ∧ t.outLen = 0 ∧
      t = { s with res := .truncatedInput, out := t.out, outLen := 0, cur := t.cur, k := t.k, phase := .idle,
                   draws := t.draws }

/-- R171, R170: with `READY = 1` and room for `8 * IN_LEN` bytes, every input gives `OK` with the bytes its bits spell before
the first EOS code word, or `TruncatedInput` with no bytes. -/
def Obligations.DecompressIsTotal : Prop :=
  ∀ (s : State) (bits : List Bool), s.Inv → s.ready = true → s.inputBits = some bits →
    fits (8 * s.inLen) s.inst.outMax = true →
    ∃ t, exec .decompress s = .next t ∧ t.outLen ≤ 8 * s.inLen ∧
      ((t.res = .ok ∧ ∃ d rest, bits = bitString s.code d ++ rest ∧ t.outputBytes = some d) ∨
       (t.res = .truncatedInput ∧ t.outLen = 0 ∧ ∀ d rest, bits ≠ bitString s.code d ++ rest))

/-- R184: the truncation test comes before the bit is fetched: the empty input is `TruncatedInput` on any tables, also on
tables whose root has no children. -/
def Obligations.DecompressEmptyInputIsTruncated : Prop :=
  ∀ s : State, s.ready = true → s.inLen = 0 →
    ∃ t, exec .decompress s = .next t ∧ t.res = .truncatedInput ∧ t.outLen = 0

/-- R183: `CorruptStream` is raised when the child about to be followed is `NULL`, wherever in the input that is, and no step
from a state with built tables raises it. -/
def Obligations.CorruptStreamIsRaisedAndUnreachable : Prop :=
  (∀ (s u : State) (walked bits : List Bool) (b : Bool) (nd : Node), s.ready = true →
    s.inputBits = some (walked ++ b :: bits) → decodeBits walked (startDecoder s) = .going u →
    u.nodeAt u.cur = some nd → branch b nd = Config.null →
    ∃ t, exec .decompress s = .next t ∧ t.res = .corruptStream ∧ t.outLen = 0) ∧
  (∀ s t : State, s.Inv → s.res ≠ .corruptStream → step s = .next t → t.res ≠ .corruptStream)

/-- R171: DECOMPRESS is a function of `READY`, `NODE`, `ROOT` and the input (and of `OUT_MAX`). -/
def Obligations.DecompressDependsOnTreeAndInputOnly : Prop :=
  ∀ s s' t : State, s'.ready = s.ready → s'.node = s.node → s'.root = s.root → s'.inp = s.inp → s'.inLen = s.inLen →
    s'.inst.outMax = s.inst.outMax → exec .decompress s = .next t →
    ∃ t', exec .decompress s' = .next t' ∧ t'.res = t.res ∧ t'.outLen = t.outLen ∧ t'.outputBytes = t.outputBytes

/-! ## Code words -/

/-- On the default tree, from the root, the code word of a byte takes its bits, appends the byte and returns to the root, and
nothing else changes: what R162 and R164 say of the decoder while it takes those bits. A code word as a step of its own is
the MODEL's choice, log 1. -/
def Obligations.CodeWordAppendsItsByte : Prop :=
  ∀ (s : State) (sym : Nat) (i : Instr), sym < 256 → symbolInstr sym = some i → s.ready = true →
    s.node = defaultNode → s.root = 512 → s.cur = s.root → fits (s.outLen + 1) s.inst.outMax = true →
    exec i s = .next { s with k := s.k + codeLength i, out := s.out.write s.outLen (BitVec.ofNat 8 sym),
                              outLen := s.outLen + 1 }

/-- On the default tree, from the root, the code word of EOS ends the command `OK` with the bytes emitted so far: what R164
says of the decoder at the EOS leaf. `SYM_EOS` as a step of its own, and the phase it leaves idle, are the MODEL's choice,
log 1. -/
def Obligations.CodeWordOfEosEndsTheCommand : Prop :=
  ∀ s : State, s.ready = true → s.node = defaultNode → s.root = 512 → s.cur = s.root →
    ∃ t, exec .symEos s = .next t ∧
      t = { s with res := .ok, phase := .idle, cur := t.cur, k := t.k, draws := t.draws }

/-- Every code word completes on any built tables, wherever in the tree the walk stands, given room: its bits are a path in
the full tree (R95, R163), so it never raises `CorruptStream`. A code word as a step of its own, and the decoding in progress
the premise speaks of, are the MODEL's choice, log 1. -/
def Obligations.CodeWordsCompleteOnAnyTables : Prop :=
  ∀ (s : State) (i : Instr), s.Inv → DecodingOk s → i.isCommand = false → fits (s.outLen + 15) s.inst.outMax = true →
    ∃ t, exec i s = .next t ∧ t.inst = s.inst ∧ (t.res = s.res ∨ t.res = .ok)

/-- With `READY = 0` there is no decoding: every code word raises `ConfigurationError`, as R167 says of DECOMPRESS. MODEL's
reading for the code word by itself, log 25. -/
def Obligations.CodeWordsNotReady : Prop :=
  ∀ (s : State) (i : Instr), i.isCommand = false → s.ready = false →
    ∃ t, exec i s = .next t ∧
      t = { s with res := .configurationError, outLen := 0, out := t.out, phase := .idle }

/-- D1: a serial schedule of DECOMPRESS changes no result. The schedule here, code word by code word, is the MODEL's choice, log
1: it ends, after at most one step per input bit and one more, in exactly the outcome of the atomic command, on any tables. -/
def Obligations.SerialDecodingRefinesDecompress : Prop :=
  ∀ s : State, s.Inv → s.ready = true → s.phase = .idle →
    ∃ n, n ≤ 8 * s.inLen + 1 ∧ Host.Core.run Sys2Proof.core n (beginDecode s) = exec .decompress s

/-! ## Whole-machine rules -/

/-- R185: which command can end in which way. -/
def Obligations.CommandsEndAsTheTableSays : Prop :=
  ∀ s t : State, s.Inv →
    (exec .init s = .next t →
      (t.res = .ok ∧ s.inst.freq.length = Config.nsym) ∨
      (t.res = .configurationError ∧ s.inst.freq.length ≠ Config.nsym)) ∧
    (exec .compress s = .next t →
      (t.res = .ok ∧ s.ready = true) ∨ (t.res = .configurationError ∧ s.ready = false)) ∧
    (exec .decompress s = .next t →
      (t.res = .configurationError ∧ s.ready = false) ∨
      (t.res = .ok ∧ s.ready = true ∧ ∃ d rest, s.inputBits = some (bitString s.code d ++ rest)) ∨
      (t.res = .truncatedInput ∧ s.ready = true ∧ ∀ d rest, s.inputBits ≠ some (bitString s.code d ++ rest)))

/-- R186: a failing command sets `RES` and `OUT_LEN <- 0`; the tables, `READY` (but for a failing INIT, which has cleared it)
and the input keep the values they had. -/
def Obligations.FailureDeliversNothing : Prop :=
  ∀ (i : Instr) (s t : State), i.isCommand = true → exec i s = .next t → t.res ≠ .ok →
    t.outLen = 0 ∧ t.inst = s.inst ∧ t.node = s.node ∧ t.root = s.root ∧ t.code = s.code ∧ t.inp = s.inp ∧
    t.inLen = s.inLen ∧ (i ≠ .init → t.ready = s.ready) ∧ (i = .init → t.ready = false)

/-- R187: `RES` is not sticky: what a command does, and its outcome, does not depend on the `RES` before it. -/
def Obligations.ResultIsNotSticky : Prop :=
  ∀ (i : Instr) (s : State) (r : Result), i.isCommand = true → exec i { s with res := r } = exec i s

/-- R28, R213, R216: no step writes the instance's constants, and only INIT and a reset write the tables or `READY`. -/
def Obligations.OnlyInitAndResetWriteTheTables : Prop :=
  ∀ s t : State, step s = .next t → t.inst = s.inst ∧
    ((t.node = s.node ∧ t.root = s.root ∧ t.code = s.code ∧ t.ready = s.ready) ∨
     (s.phase = .idle ∧ ∃ rest, s.host = .reset :: rest ∨ s.host = .writeCmd 0b01 :: rest))

/-- R65: COMPRESS and DECOMPRESS leave the instance, the tables, `READY`, `IN`, `IN_LEN` and the other units' registers as they
were. The same of every code word rests on the MODEL's choice that a code word is a step of its own, log 1; the host's queue
(log 3) and the phase (log 1) are the MODEL's fields. -/
def Obligations.EncoderAndDecoderFrame : Prop :=
  (∀ s t : State, exec .compress s = .next t →
    sameTablesAndInput s t ∧ sameBuilder s t ∧ sameDecoder s t ∧ t.host = s.host ∧ t.phase = s.phase) ∧
  (∀ (i : Instr) (s t : State), i = .decompress ∨ i.isCommand = false → exec i s = .next t →
    sameTablesAndInput s t ∧ sameBuilder s t ∧ sameEncoder s t ∧ t.host = s.host)

/-- R34, R65, R70: a COMPRESS or DECOMPRESS changes nothing that a later one's result depends on. -/
def Obligations.EarlierCommandsDoNotInterfere : Prop :=
  ∀ (i j : Instr) (s t u : State), i = .compress ∨ i = .decompress → j = .compress ∨ j = .decompress →
    exec i s = .next t → exec j s = .next u →
    ∃ v, exec j t = .next v ∧ v.res = u.res ∧ v.outLen = u.outLen ∧ v.outputBytes = u.outputBytes

/-- The reset state meets the invariant. -/
def Obligations.InvariantAtReset : Prop := State.reset.Inv

/-- Every step keeps the invariant: in particular `READY = 1` means the tables are those INIT builds from `FREQ` (R42), and
`IN` and `OUT` hold values exactly below `IN_LEN` and `OUT_LEN` (R29). That nothing is listed beyond them is the MODEL's
representation, log 7; what it asks of a decoding in progress is about the MODEL's phase, log 1. -/
def Obligations.InvariantKept : Prop := ∀ s t : State, s.Inv → step s = .next t → t.Inv

/-- Every step keeps both buffers in their canonical form, from any state. That form, listed indices strictly rising, is the
MODEL's own representation of `IN` and `OUT`, log 7. -/
def Obligations.MemoryFormKept : Prop :=
  ∀ s t : State, s.inp.wf = true → s.out.wf = true → step s = .next t → t.inp.wf = true ∧ t.out.wf = true

/-- From a state that meets the invariant no step faults: no table is read beyond its end (R66), no unwritten input byte is
read (R75). -/
def Obligations.StepNeverFaults : Prop := ∀ s : State, s.Inv → noFault (step s)

/-- R180, R224, R229: with unbounded buffers and a `FREQ` that is in range or of the wrong length, every step answers a next
state, whatever the host does but for a write of 0 to `CMD`. -/
def Obligations.EveryStepAnswersOnSupportedRuns : Prop :=
  ∀ s : State, s.Inv → s.inst.inMax = none → s.inst.outMax = none →
    (FreqInRange s.inst.freq ∨ s.inst.freq.length ≠ Config.nsym) → (∀ rest, s.host ≠ .writeCmd 0 :: rest) →
    answersNext (step s)
end

