-- ==== Sys2Proof/Laws/Memory.lean ====
section
/-! SUPPORT. The laws of the byte buffers: a read after a write, the canonical form, and buffers filled from index 0. -/

namespace Sys2Proof.Machine

namespace Memory

@[simp] theorem read_nil (a : Nat) : Memory.read [] a = none := rfl

theorem read_cons (b : Nat) (v : Byte) (m : Memory) (a : Nat) :
    Memory.read ((b, v) :: m) a = if b = a then some v else Memory.read m a := rfl

/-- A read of the index just written gives the byte written. -/
@[simp] theorem read_write_same (m : Memory) (a : Nat) (v : Byte) : (m.write a v).read a = some v := by
  induction m with
  | nil => simp [Memory.write, Memory.read]
  | cons c m ih =>
    obtain ⟨b, w⟩ := c
    simp only [Memory.write]
    split
    · simp [Memory.read]
    · split
      · simp [Memory.read]
      · rw [read_cons, if_neg (by omega), ih]

/-- A write leaves every other index alone. -/
theorem read_write_other (m : Memory) {a c : Nat} (v : Byte) (h : c ≠ a) : (m.write a v).read c = m.read c := by
  induction m with
  | nil => simp [Memory.write, Memory.read, Ne.symm h]
  | cons d m ih =>
    obtain ⟨b, w⟩ := d
    simp only [Memory.write]
    split
    · rw [read_cons, if_neg (Ne.symm h)]
    · split
      · subst_vars
        rw [read_cons, read_cons, if_neg (Ne.symm h), if_neg (Ne.symm h)]
      · rw [read_cons, read_cons, ih]

theorem wf_cons_cons (a b : Nat) (v w : Byte) (m : Memory) :
    Memory.wf ((a, v) :: (b, w) :: m) = true ↔ a < b ∧ Memory.wf ((b, w) :: m) = true := by
  simp [Memory.wf]

/-- The canonical form as sortedness of the indices. -/
theorem wf_iff_pairwise (m : Memory) : m.wf = true ↔ (m.map Prod.fst).Pairwise (· < ·) := by
  induction m with
  | nil => simp [Memory.wf]
  | cons c m ih =>
    obtain ⟨a, v⟩ := c
    cases m with
    | nil => simp [Memory.wf]
    | cons d m =>
      obtain ⟨b, w⟩ := d
      rw [wf_cons_cons, ih]
      simp only [List.map_cons, List.pairwise_cons, List.mem_cons, List.mem_map]
      constructor
      · rintro ⟨hab, hb, hm⟩
        refine ⟨?_, hb, hm⟩
        rintro x (rfl | hx)
        · exact hab
        · exact lt_trans hab (hb x hx)
      · rintro ⟨ha, hb, hm⟩
        exact ⟨ha b (Or.inl rfl), hb, hm⟩

/-- The indices after a write. -/
theorem mem_keys_write (m : Memory) (a : Nat) (v : Byte) (x : Nat) :
    x ∈ (m.write a v).map Prod.fst ↔ x = a ∨ x ∈ m.map Prod.fst := by
  induction m with
  | nil => simp [Memory.write]
  | cons c m ih =>
    obtain ⟨b, w⟩ := c
    simp only [Memory.write]
    split
    · simp
    · split
      · subst_vars; simp
      · simp only [List.map_cons, List.mem_cons, ih]; tauto

/-- A write keeps the canonical form. -/
theorem write_wf {m : Memory} (a : Nat) (v : Byte) (h : m.wf = true) : (m.write a v).wf = true := by
  rw [wf_iff_pairwise] at *
  induction m with
  | nil => simp [Memory.write]
  | cons c m ih =>
    obtain ⟨b, w⟩ := c
    simp only [List.map_cons, List.pairwise_cons] at h
    simp only [Memory.write]
    split
    · rename_i hab
      simp only [List.map_cons, List.pairwise_cons, List.mem_cons]
      refine ⟨?_, h⟩
      rintro x (rfl | hx)
      · exact hab
      · exact lt_trans hab (h.1 x hx)
    · split
      · subst_vars; simpa using h
      · simp only [List.map_cons, List.pairwise_cons]
        refine ⟨fun x hx => ?_, ih h.2⟩
        rcases (mem_keys_write m a v x).mp hx with rfl | hx
        · omega
        · exact h.1 x hx

theorem keys_ofBytes (i : Nat) (bs : List Byte) : (ofBytes i bs).map Prod.fst = List.range' i bs.length := by
  induction bs generalizing i with
  | nil => simp [ofBytes]
  | cons b bs ih => simp [ofBytes, ih, List.range'_succ]

theorem ofBytes_wf (i : Nat) (bs : List Byte) : (ofBytes i bs).wf = true := by
  rw [wf_iff_pairwise, keys_ofBytes]
  exact List.pairwise_lt_range'

/-- A buffer written from index `i` reads as the bytes written. -/
theorem read_ofBytes (i : Nat) (bs : List Byte) (j : Nat) : (ofBytes i bs).read (i + j) = bs[j]? := by
  induction bs generalizing i j with
  | nil => simp [ofBytes]
  | cons b bs ih =>
    cases j with
    | zero => simp [ofBytes, Memory.read]
    | succ j =>
      rw [ofBytes, read_cons, if_neg (by omega), show i + (j + 1) = i + 1 + j by omega, ih]
      simp

/-- A filled buffer is in canonical form. -/
theorem filled_wf {m : Memory} {n : Nat} (h : m.filled n) : m.wf = true := by
  rw [wf_iff_pairwise, show m.map Prod.fst = List.range n from h]
  exact List.pairwise_lt_range

theorem filled_nil : Memory.filled [] 0 := rfl

theorem filled_ofBytes (bs : List Byte) : (ofBytes 0 bs).filled bs.length := by
  unfold filled
  rw [keys_ofBytes, List.range_eq_range']

/-- Reading gives a value exactly at the listed indices. -/
theorem read_isSome_iff (m : Memory) (a : Nat) : (m.read a).isSome ↔ a ∈ m.map Prod.fst := by
  induction m with
  | nil => simp
  | cons c m ih =>
    obtain ⟨b, w⟩ := c
    rw [read_cons]
    split
    · simp_all
    · rename_i h
      simp [ih, Ne.symm h]

theorem filled_read {m : Memory} {n : Nat} (h : m.filled n) (a : Nat) : (m.read a).isSome ↔ a < n := by
  rw [read_isSome_iff, show m.map Prod.fst = List.range n from h, List.mem_range]

/-- Beyond every listed index, a write goes to the end. -/
theorem write_eq_append {m : Memory} {a : Nat} (v : Byte) (h : ∀ x ∈ m.map Prod.fst, x < a) :
    m.write a v = m ++ [(a, v)] := by
  induction m with
  | nil => rfl
  | cons c m ih =>
    obtain ⟨b, w⟩ := c
    have hb : b < a := h b (by simp)
    simp only [Memory.write, if_neg (show ¬ a < b by omega), if_neg (show ¬ a = b by omega)]
    rw [ih fun x hx => h x (by simp at hx ⊢; exact Or.inr hx)]
    rfl

theorem filled_write_eq {m : Memory} {n : Nat} (h : m.filled n) (v : Byte) : m.write n v = m ++ [(n, v)] :=
  write_eq_append v fun x hx => by
    rw [show m.map Prod.fst = List.range n from h] at hx
    exact List.mem_range.mp hx

/-- The append keeps a buffer filled. -/
theorem filled_append {m : Memory} {n : Nat} (h : m.filled n) (v : Byte) : (m.write n v).filled (n + 1) := by
  rw [filled_write_eq h]
  unfold filled
  rw [List.map_append, show m.map Prod.fst = List.range n from h, List.range_succ]
  rfl

/-! ### The bytes of a buffer -/

/-- `n` bytes are read exactly when each of them is there. -/
theorem bytes_eq_some_iff (m : Memory) (i n : Nat) (bs : List Byte) :
    m.bytes i n = some bs ↔ bs.length = n ∧ ∀ j, j < n → m.read (i + j) = bs[j]? := by
  induction n generalizing i bs with
  | zero =>
    rw [bytes]
    constructor
    · rintro ⟨⟩
      exact ⟨rfl, fun j hj => absurd hj (by omega)⟩
    · rintro ⟨h, -⟩
      rw [List.length_eq_zero_iff.mp h]
  | succ n ih =>
    rw [bytes]
    constructor
    · intro h
      split at h
      · rename_i b bs' hb hbs
        cases h
        obtain ⟨hl, hr⟩ := (ih (i + 1) bs').mp hbs
        refine ⟨by simp [hl], fun j hj => ?_⟩
        cases j with
        | zero => simpa using hb
        | succ j =>
          rw [show i + (j + 1) = i + 1 + j by omega, hr j (by omega)]
          simp
      · cases h
    · rintro ⟨hl, hr⟩
      cases bs with
      | nil => simp at hl
      | cons b bs =>
        have h0 : m.read i = some b := by simpa using hr 0 (by omega)
        have h1 : m.bytes (i + 1) n = some bs := by
          refine (ih (i + 1) bs).mpr ⟨by simpa using hl, fun j hj => ?_⟩
          have := hr (j + 1) (by omega)
          rw [show i + 1 + j = i + (j + 1) by omega, this]
          simp
        rw [h0, h1]

theorem bytes_ofBytes (bs : List Byte) : (ofBytes 0 bs).bytes 0 bs.length = some bs :=
  (bytes_eq_some_iff _ _ _ _).mpr ⟨rfl, fun j _ => read_ofBytes 0 bs j⟩

/-- A filled buffer has its bytes. -/
theorem filled_bytes {m : Memory} {n : Nat} (h : m.filled n) : ∃ bs, m.bytes 0 n = some bs ∧ bs.length = n := by
  refine ⟨(List.range n).map fun j => (m.read j).getD 0, ?_, by simp⟩
  refine (bytes_eq_some_iff _ _ _ _).mpr ⟨by simp, fun j hj => ?_⟩
  have := (filled_read h j).mpr hj
  obtain ⟨v, hv⟩ := Option.isSome_iff_exists.mp this
  simp [hj, hv]

/-- The bytes after an append. -/
theorem bytes_append {m : Memory} {n : Nat} {bs : List Byte} (hb : m.bytes 0 n = some bs) (v : Byte) :
    (m.write n v).bytes 0 (n + 1) = some (bs ++ [v]) := by
  obtain ⟨hl, hr⟩ := (bytes_eq_some_iff _ _ _ _).mp hb
  refine (bytes_eq_some_iff _ _ _ _).mpr ⟨by simp [hl], fun j hj => ?_⟩
  rcases Nat.lt_succ_iff_lt_or_eq.mp hj with hj' | rfl
  · rw [read_write_other m v (by omega), hr j hj', List.getElem?_append_left (by omega)]
  · simp [← hl]

end Memory

end Sys2Proof.Machine
end

