-- ==== Sys2Proof/Laws/State.lean ====
section
/-! SUPPORT. For each update of State, what each field of the result is; all by definition. -/

namespace Sys2Proof.Machine

variable (s : State)

@[simp] theorem append_inst (v : Byte) : (s.append v).inst = s.inst := rfl
@[simp] theorem append_node (v : Byte) : (s.append v).node = s.node := rfl
@[simp] theorem append_root (v : Byte) : (s.append v).root = s.root := rfl
@[simp] theorem append_code (v : Byte) : (s.append v).code = s.code := rfl
@[simp] theorem append_ready (v : Byte) : (s.append v).ready = s.ready := rfl
@[simp] theorem append_res (v : Byte) : (s.append v).res = s.res := rfl
@[simp] theorem append_inp (v : Byte) : (s.append v).inp = s.inp := rfl
@[simp] theorem append_inLen (v : Byte) : (s.append v).inLen = s.inLen := rfl
@[simp] theorem append_out (v : Byte) : (s.append v).out = s.out.write s.outLen v := rfl
@[simp] theorem append_outLen (v : Byte) : (s.append v).outLen = s.outLen + 1 := rfl
@[simp] theorem append_live (v : Byte) : (s.append v).live = s.live := rfl
@[simp] theorem append_nn (v : Byte) : (s.append v).nn = s.nn := rfl
@[simp] theorem append_acc (v : Byte) : (s.append v).acc = s.acc := rfl
@[simp] theorem append_bc (v : Byte) : (s.append v).bc = s.bc := rfl
@[simp] theorem append_cur (v : Byte) : (s.append v).cur = s.cur := rfl
@[simp] theorem append_k (v : Byte) : (s.append v).k = s.k := rfl
@[simp] theorem append_phase (v : Byte) : (s.append v).phase = s.phase := rfl
@[simp] theorem append_host (v : Byte) : (s.append v).host = s.host := rfl
@[simp] theorem append_draws (v : Byte) : (s.append v).draws = s.draws := rfl

@[simp] theorem clearOut_inst : (s.clearOut).inst = s.inst := rfl
@[simp] theorem clearOut_node : (s.clearOut).node = s.node := rfl
@[simp] theorem clearOut_root : (s.clearOut).root = s.root := rfl
@[simp] theorem clearOut_code : (s.clearOut).code = s.code := rfl
@[simp] theorem clearOut_ready : (s.clearOut).ready = s.ready := rfl
@[simp] theorem clearOut_res : (s.clearOut).res = s.res := rfl
@[simp] theorem clearOut_inp : (s.clearOut).inp = s.inp := rfl
@[simp] theorem clearOut_inLen : (s.clearOut).inLen = s.inLen := rfl
@[simp] theorem clearOut_out : (s.clearOut).out = [] := rfl
@[simp] theorem clearOut_outLen : (s.clearOut).outLen = 0 := rfl
@[simp] theorem clearOut_live : (s.clearOut).live = s.live := rfl
@[simp] theorem clearOut_nn : (s.clearOut).nn = s.nn := rfl
@[simp] theorem clearOut_acc : (s.clearOut).acc = s.acc := rfl
@[simp] theorem clearOut_bc : (s.clearOut).bc = s.bc := rfl
@[simp] theorem clearOut_cur : (s.clearOut).cur = s.cur := rfl
@[simp] theorem clearOut_k : (s.clearOut).k = s.k := rfl
@[simp] theorem clearOut_phase : (s.clearOut).phase = s.phase := rfl
@[simp] theorem clearOut_host : (s.clearOut).host = s.host := rfl
@[simp] theorem clearOut_draws : (s.clearOut).draws = s.draws := rfl

@[simp] theorem countBit_inst : s.countBit.inst = s.inst := rfl
@[simp] theorem countBit_node : s.countBit.node = s.node := rfl
@[simp] theorem countBit_root : s.countBit.root = s.root := rfl
@[simp] theorem countBit_code : s.countBit.code = s.code := rfl
@[simp] theorem countBit_ready : s.countBit.ready = s.ready := rfl
@[simp] theorem countBit_res : s.countBit.res = s.res := rfl
@[simp] theorem countBit_inp : s.countBit.inp = s.inp := rfl
@[simp] theorem countBit_inLen : s.countBit.inLen = s.inLen := rfl
@[simp] theorem countBit_out : s.countBit.out = s.out := rfl
@[simp] theorem countBit_outLen : s.countBit.outLen = s.outLen := rfl
@[simp] theorem countBit_live : s.countBit.live = s.live := rfl
@[simp] theorem countBit_nn : s.countBit.nn = s.nn := rfl
@[simp] theorem countBit_acc : s.countBit.acc = s.acc := rfl
@[simp] theorem countBit_bc : s.countBit.bc = s.bc := rfl
@[simp] theorem countBit_cur : s.countBit.cur = s.cur := rfl
@[simp] theorem countBit_k : s.countBit.k = s.k + 1 := rfl
@[simp] theorem countBit_phase : s.countBit.phase = s.phase := rfl
@[simp] theorem countBit_host : s.countBit.host = s.host := rfl
@[simp] theorem countBit_draws : s.countBit.draws = s.draws := rfl

@[simp] theorem moveTo_inst (n : NodeIdx) : (s.moveTo n).inst = s.inst := rfl
@[simp] theorem moveTo_node (n : NodeIdx) : (s.moveTo n).node = s.node := rfl
@[simp] theorem moveTo_root (n : NodeIdx) : (s.moveTo n).root = s.root := rfl
@[simp] theorem moveTo_code (n : NodeIdx) : (s.moveTo n).code = s.code := rfl
@[simp] theorem moveTo_ready (n : NodeIdx) : (s.moveTo n).ready = s.ready := rfl
@[simp] theorem moveTo_res (n : NodeIdx) : (s.moveTo n).res = s.res := rfl
@[simp] theorem moveTo_inp (n : NodeIdx) : (s.moveTo n).inp = s.inp := rfl
@[simp] theorem moveTo_inLen (n : NodeIdx) : (s.moveTo n).inLen = s.inLen := rfl
@[simp] theorem moveTo_out (n : NodeIdx) : (s.moveTo n).out = s.out := rfl
@[simp] theorem moveTo_outLen (n : NodeIdx) : (s.moveTo n).outLen = s.outLen := rfl
@[simp] theorem moveTo_live (n : NodeIdx) : (s.moveTo n).live = s.live := rfl
@[simp] theorem moveTo_nn (n : NodeIdx) : (s.moveTo n).nn = s.nn := rfl
@[simp] theorem moveTo_acc (n : NodeIdx) : (s.moveTo n).acc = s.acc := rfl
@[simp] theorem moveTo_bc (n : NodeIdx) : (s.moveTo n).bc = s.bc := rfl
@[simp] theorem moveTo_cur (n : NodeIdx) : (s.moveTo n).cur = n := rfl
@[simp] theorem moveTo_k (n : NodeIdx) : (s.moveTo n).k = s.k := rfl
@[simp] theorem moveTo_phase (n : NodeIdx) : (s.moveTo n).phase = s.phase := rfl
@[simp] theorem moveTo_host (n : NodeIdx) : (s.moveTo n).host = s.host := rfl
@[simp] theorem moveTo_draws (n : NodeIdx) : (s.moveTo n).draws = s.draws := rfl

@[simp] theorem raise_inst (c : Result) : (raise c s).inst = s.inst := rfl
@[simp] theorem raise_node (c : Result) : (raise c s).node = s.node := rfl
@[simp] theorem raise_root (c : Result) : (raise c s).root = s.root := rfl
@[simp] theorem raise_code (c : Result) : (raise c s).code = s.code := rfl
@[simp] theorem raise_ready (c : Result) : (raise c s).ready = s.ready := rfl
@[simp] theorem raise_res (c : Result) : (raise c s).res = c := rfl
@[simp] theorem raise_inp (c : Result) : (raise c s).inp = s.inp := rfl
@[simp] theorem raise_inLen (c : Result) : (raise c s).inLen = s.inLen := rfl
@[simp] theorem raise_out (c : Result) : (raise c s).out = [] := rfl
@[simp] theorem raise_outLen (c : Result) : (raise c s).outLen = 0 := rfl
@[simp] theorem raise_live (c : Result) : (raise c s).live = s.live := rfl
@[simp] theorem raise_nn (c : Result) : (raise c s).nn = s.nn := rfl
@[simp] theorem raise_acc (c : Result) : (raise c s).acc = s.acc := rfl
@[simp] theorem raise_bc (c : Result) : (raise c s).bc = s.bc := rfl
@[simp] theorem raise_cur (c : Result) : (raise c s).cur = s.cur := rfl
@[simp] theorem raise_k (c : Result) : (raise c s).k = s.k := rfl
@[simp] theorem raise_phase (c : Result) : (raise c s).phase = s.phase := rfl
@[simp] theorem raise_host (c : Result) : (raise c s).host = s.host := rfl
@[simp] theorem raise_draws (c : Result) : (raise c s).draws = s.draws := rfl

@[simp] theorem raiseIdle_inst (c : Result) : (raiseIdle c s).inst = s.inst := rfl
@[simp] theorem raiseIdle_node (c : Result) : (raiseIdle c s).node = s.node := rfl
@[simp] theorem raiseIdle_root (c : Result) : (raiseIdle c s).root = s.root := rfl
@[simp] theorem raiseIdle_code (c : Result) : (raiseIdle c s).code = s.code := rfl
@[simp] theorem raiseIdle_ready (c : Result) : (raiseIdle c s).ready = s.ready := rfl
@[simp] theorem raiseIdle_res (c : Result) : (raiseIdle c s).res = c := rfl
@[simp] theorem raiseIdle_inp (c : Result) : (raiseIdle c s).inp = s.inp := rfl
@[simp] theorem raiseIdle_inLen (c : Result) : (raiseIdle c s).inLen = s.inLen := rfl
@[simp] theorem raiseIdle_out (c : Result) : (raiseIdle c s).out = [] := rfl
@[simp] theorem raiseIdle_outLen (c : Result) : (raiseIdle c s).outLen = 0 := rfl
@[simp] theorem raiseIdle_live (c : Result) : (raiseIdle c s).live = s.live := rfl
@[simp] theorem raiseIdle_nn (c : Result) : (raiseIdle c s).nn = s.nn := rfl
@[simp] theorem raiseIdle_acc (c : Result) : (raiseIdle c s).acc = s.acc := rfl
@[simp] theorem raiseIdle_bc (c : Result) : (raiseIdle c s).bc = s.bc := rfl
@[simp] theorem raiseIdle_cur (c : Result) : (raiseIdle c s).cur = s.cur := rfl
@[simp] theorem raiseIdle_k (c : Result) : (raiseIdle c s).k = s.k := rfl
@[simp] theorem raiseIdle_phase (c : Result) : (raiseIdle c s).phase = .idle := rfl
@[simp] theorem raiseIdle_host (c : Result) : (raiseIdle c s).host = s.host := rfl
@[simp] theorem raiseIdle_draws (c : Result) : (raiseIdle c s).draws = s.draws := rfl

@[simp] theorem succeed_inst : (succeed s).inst = s.inst := rfl
@[simp] theorem succeed_node : (succeed s).node = s.node := rfl
@[simp] theorem succeed_root : (succeed s).root = s.root := rfl
@[simp] theorem succeed_code : (succeed s).code = s.code := rfl
@[simp] theorem succeed_ready : (succeed s).ready = s.ready := rfl
@[simp] theorem succeed_res : (succeed s).res = .ok := rfl
@[simp] theorem succeed_inp : (succeed s).inp = s.inp := rfl
@[simp] theorem succeed_inLen : (succeed s).inLen = s.inLen := rfl
@[simp] theorem succeed_out : (succeed s).out = s.out := rfl
@[simp] theorem succeed_outLen : (succeed s).outLen = s.outLen := rfl
@[simp] theorem succeed_live : (succeed s).live = s.live := rfl
@[simp] theorem succeed_nn : (succeed s).nn = s.nn := rfl
@[simp] theorem succeed_acc : (succeed s).acc = s.acc := rfl
@[simp] theorem succeed_bc : (succeed s).bc = s.bc := rfl
@[simp] theorem succeed_cur : (succeed s).cur = s.cur := rfl
@[simp] theorem succeed_k : (succeed s).k = s.k := rfl
@[simp] theorem succeed_phase : (succeed s).phase = s.phase := rfl
@[simp] theorem succeed_host : (succeed s).host = s.host := rfl
@[simp] theorem succeed_draws : (succeed s).draws = s.draws := rfl

@[simp] theorem releaseBuilder_inst : (releaseBuilder s).inst = s.inst := rfl
@[simp] theorem releaseBuilder_node : (releaseBuilder s).node = s.node := rfl
@[simp] theorem releaseBuilder_root : (releaseBuilder s).root = s.root := rfl
@[simp] theorem releaseBuilder_code : (releaseBuilder s).code = s.code := rfl
@[simp] theorem releaseBuilder_ready : (releaseBuilder s).ready = s.ready := rfl
@[simp] theorem releaseBuilder_res : (releaseBuilder s).res = s.res := rfl
@[simp] theorem releaseBuilder_inp : (releaseBuilder s).inp = s.inp := rfl
@[simp] theorem releaseBuilder_inLen : (releaseBuilder s).inLen = s.inLen := rfl
@[simp] theorem releaseBuilder_out : (releaseBuilder s).out = s.out := rfl
@[simp] theorem releaseBuilder_outLen : (releaseBuilder s).outLen = s.outLen := rfl
@[simp] theorem releaseBuilder_live : (releaseBuilder s).live = Config.freeLive s.draws := rfl
@[simp] theorem releaseBuilder_nn : (releaseBuilder s).nn = Config.freeNn s.draws := rfl
@[simp] theorem releaseBuilder_acc : (releaseBuilder s).acc = s.acc := rfl
@[simp] theorem releaseBuilder_bc : (releaseBuilder s).bc = s.bc := rfl
@[simp] theorem releaseBuilder_cur : (releaseBuilder s).cur = s.cur := rfl
@[simp] theorem releaseBuilder_k : (releaseBuilder s).k = s.k := rfl
@[simp] theorem releaseBuilder_phase : (releaseBuilder s).phase = s.phase := rfl
@[simp] theorem releaseBuilder_host : (releaseBuilder s).host = s.host := rfl
@[simp] theorem releaseBuilder_draws : (releaseBuilder s).draws = s.draws + 1 := rfl

@[simp] theorem releaseEncoder_inst : (releaseEncoder s).inst = s.inst := rfl
@[simp] theorem releaseEncoder_node : (releaseEncoder s).node = s.node := rfl
@[simp] theorem releaseEncoder_root : (releaseEncoder s).root = s.root := rfl
@[simp] theorem releaseEncoder_code : (releaseEncoder s).code = s.code := rfl
@[simp] theorem releaseEncoder_ready : (releaseEncoder s).ready = s.ready := rfl
@[simp] theorem releaseEncoder_res : (releaseEncoder s).res = s.res := rfl
@[simp] theorem releaseEncoder_inp : (releaseEncoder s).inp = s.inp := rfl
@[simp] theorem releaseEncoder_inLen : (releaseEncoder s).inLen = s.inLen := rfl
@[simp] theorem releaseEncoder_out : (releaseEncoder s).out = s.out := rfl
@[simp] theorem releaseEncoder_outLen : (releaseEncoder s).outLen = s.outLen := rfl
@[simp] theorem releaseEncoder_live : (releaseEncoder s).live = s.live := rfl
@[simp] theorem releaseEncoder_nn : (releaseEncoder s).nn = s.nn := rfl
@[simp] theorem releaseEncoder_acc : (releaseEncoder s).acc = Config.freeAcc s.draws := rfl
@[simp] theorem releaseEncoder_bc : (releaseEncoder s).bc = Config.freeBc s.draws := rfl
@[simp] theorem releaseEncoder_cur : (releaseEncoder s).cur = s.cur := rfl
@[simp] theorem releaseEncoder_k : (releaseEncoder s).k = s.k := rfl
@[simp] theorem releaseEncoder_phase : (releaseEncoder s).phase = s.phase := rfl
@[simp] theorem releaseEncoder_host : (releaseEncoder s).host = s.host := rfl
@[simp] theorem releaseEncoder_draws : (releaseEncoder s).draws = s.draws + 1 := rfl

@[simp] theorem releaseDecoder_inst : (releaseDecoder s).inst = s.inst := rfl
@[simp] theorem releaseDecoder_node : (releaseDecoder s).node = s.node := rfl
@[simp] theorem releaseDecoder_root : (releaseDecoder s).root = s.root := rfl
@[simp] theorem releaseDecoder_code : (releaseDecoder s).code = s.code := rfl
@[simp] theorem releaseDecoder_ready : (releaseDecoder s).ready = s.ready := rfl
@[simp] theorem releaseDecoder_res : (releaseDecoder s).res = s.res := rfl
@[simp] theorem releaseDecoder_inp : (releaseDecoder s).inp = s.inp := rfl
@[simp] theorem releaseDecoder_inLen : (releaseDecoder s).inLen = s.inLen := rfl
@[simp] theorem releaseDecoder_out : (releaseDecoder s).out = s.out := rfl
@[simp] theorem releaseDecoder_outLen : (releaseDecoder s).outLen = s.outLen := rfl
@[simp] theorem releaseDecoder_live : (releaseDecoder s).live = s.live := rfl
@[simp] theorem releaseDecoder_nn : (releaseDecoder s).nn = s.nn := rfl
@[simp] theorem releaseDecoder_acc : (releaseDecoder s).acc = s.acc := rfl
@[simp] theorem releaseDecoder_bc : (releaseDecoder s).bc = s.bc := rfl
@[simp] theorem releaseDecoder_cur : (releaseDecoder s).cur = Config.freeCur s.draws := rfl
@[simp] theorem releaseDecoder_k : (releaseDecoder s).k = Config.freeK s.draws := rfl
@[simp] theorem releaseDecoder_phase : (releaseDecoder s).phase = .idle := rfl
@[simp] theorem releaseDecoder_host : (releaseDecoder s).host = s.host := rfl
@[simp] theorem releaseDecoder_draws : (releaseDecoder s).draws = s.draws + 1 := rfl

@[simp] theorem startEncoder_inst : (startEncoder s).inst = s.inst := rfl
@[simp] theorem startEncoder_node : (startEncoder s).node = s.node := rfl
@[simp] theorem startEncoder_root : (startEncoder s).root = s.root := rfl
@[simp] theorem startEncoder_code : (startEncoder s).code = s.code := rfl
@[simp] theorem startEncoder_ready : (startEncoder s).ready = s.ready := rfl
@[simp] theorem startEncoder_res : (startEncoder s).res = s.res := rfl
@[simp] theorem startEncoder_inp : (startEncoder s).inp = s.inp := rfl
@[simp] theorem startEncoder_inLen : (startEncoder s).inLen = s.inLen := rfl
@[simp] theorem startEncoder_out : (startEncoder s).out = [] := rfl
@[simp] theorem startEncoder_outLen : (startEncoder s).outLen = 0 := rfl
@[simp] theorem startEncoder_live : (startEncoder s).live = s.live := rfl
@[simp] theorem startEncoder_nn : (startEncoder s).nn = s.nn := rfl
@[simp] theorem startEncoder_acc : (startEncoder s).acc = 0 := rfl
@[simp] theorem startEncoder_bc : (startEncoder s).bc = 0 := rfl
@[simp] theorem startEncoder_cur : (startEncoder s).cur = s.cur := rfl
@[simp] theorem startEncoder_k : (startEncoder s).k = s.k := rfl
@[simp] theorem startEncoder_phase : (startEncoder s).phase = s.phase := rfl
@[simp] theorem startEncoder_host : (startEncoder s).host = s.host := rfl
@[simp] theorem startEncoder_draws : (startEncoder s).draws = s.draws := rfl

@[simp] theorem startDecoder_inst : (startDecoder s).inst = s.inst := rfl
@[simp] theorem startDecoder_node : (startDecoder s).node = s.node := rfl
@[simp] theorem startDecoder_root : (startDecoder s).root = s.root := rfl
@[simp] theorem startDecoder_code : (startDecoder s).code = s.code := rfl
@[simp] theorem startDecoder_ready : (startDecoder s).ready = s.ready := rfl
@[simp] theorem startDecoder_res : (startDecoder s).res = s.res := rfl
@[simp] theorem startDecoder_inp : (startDecoder s).inp = s.inp := rfl
@[simp] theorem startDecoder_inLen : (startDecoder s).inLen = s.inLen := rfl
@[simp] theorem startDecoder_out : (startDecoder s).out = [] := rfl
@[simp] theorem startDecoder_outLen : (startDecoder s).outLen = 0 := rfl
@[simp] theorem startDecoder_live : (startDecoder s).live = s.live := rfl
@[simp] theorem startDecoder_nn : (startDecoder s).nn = s.nn := rfl
@[simp] theorem startDecoder_acc : (startDecoder s).acc = s.acc := rfl
@[simp] theorem startDecoder_bc : (startDecoder s).bc = s.bc := rfl
@[simp] theorem startDecoder_cur : (startDecoder s).cur = s.root := rfl
@[simp] theorem startDecoder_k : (startDecoder s).k = 0 := rfl
@[simp] theorem startDecoder_phase : (startDecoder s).phase = s.phase := rfl
@[simp] theorem startDecoder_host : (startDecoder s).host = s.host := rfl
@[simp] theorem startDecoder_draws : (startDecoder s).draws = s.draws := rfl

@[simp] theorem beginDecode_inst : (beginDecode s).inst = s.inst := rfl
@[simp] theorem beginDecode_node : (beginDecode s).node = s.node := rfl
@[simp] theorem beginDecode_root : (beginDecode s).root = s.root := rfl
@[simp] theorem beginDecode_code : (beginDecode s).code = s.code := rfl
@[simp] theorem beginDecode_ready : (beginDecode s).ready = s.ready := rfl
@[simp] theorem beginDecode_res : (beginDecode s).res = s.res := rfl
@[simp] theorem beginDecode_inp : (beginDecode s).inp = s.inp := rfl
@[simp] theorem beginDecode_inLen : (beginDecode s).inLen = s.inLen := rfl
@[simp] theorem beginDecode_out : (beginDecode s).out = [] := rfl
@[simp] theorem beginDecode_outLen : (beginDecode s).outLen = 0 := rfl
@[simp] theorem beginDecode_live : (beginDecode s).live = s.live := rfl
@[simp] theorem beginDecode_nn : (beginDecode s).nn = s.nn := rfl
@[simp] theorem beginDecode_acc : (beginDecode s).acc = s.acc := rfl
@[simp] theorem beginDecode_bc : (beginDecode s).bc = s.bc := rfl
@[simp] theorem beginDecode_cur : (beginDecode s).cur = s.root := rfl
@[simp] theorem beginDecode_k : (beginDecode s).k = 0 := rfl
@[simp] theorem beginDecode_phase : (beginDecode s).phase = .decoding := rfl
@[simp] theorem beginDecode_host : (beginDecode s).host = s.host := rfl
@[simp] theorem beginDecode_draws : (beginDecode s).draws = s.draws := rfl

@[simp] theorem loadTables_inst (x : Tables) : (loadTables x s).inst = s.inst := rfl
@[simp] theorem loadTables_node (x : Tables) : (loadTables x s).node = x.node := rfl
@[simp] theorem loadTables_root (x : Tables) : (loadTables x s).root = x.root := rfl
@[simp] theorem loadTables_code (x : Tables) : (loadTables x s).code = x.code := rfl
@[simp] theorem loadTables_ready (x : Tables) : (loadTables x s).ready = true := rfl
@[simp] theorem loadTables_res (x : Tables) : (loadTables x s).res = s.res := rfl
@[simp] theorem loadTables_inp (x : Tables) : (loadTables x s).inp = s.inp := rfl
@[simp] theorem loadTables_inLen (x : Tables) : (loadTables x s).inLen = s.inLen := rfl
@[simp] theorem loadTables_out (x : Tables) : (loadTables x s).out = s.out := rfl
@[simp] theorem loadTables_outLen (x : Tables) : (loadTables x s).outLen = s.outLen := rfl
@[simp] theorem loadTables_live (x : Tables) : (loadTables x s).live = s.live := rfl
@[simp] theorem loadTables_nn (x : Tables) : (loadTables x s).nn = s.nn := rfl
@[simp] theorem loadTables_acc (x : Tables) : (loadTables x s).acc = s.acc := rfl
@[simp] theorem loadTables_bc (x : Tables) : (loadTables x s).bc = s.bc := rfl
@[simp] theorem loadTables_cur (x : Tables) : (loadTables x s).cur = s.cur := rfl
@[simp] theorem loadTables_k (x : Tables) : (loadTables x s).k = s.k := rfl
@[simp] theorem loadTables_phase (x : Tables) : (loadTables x s).phase = s.phase := rfl
@[simp] theorem loadTables_host (x : Tables) : (loadTables x s).host = s.host := rfl
@[simp] theorem loadTables_draws (x : Tables) : (loadTables x s).draws = s.draws := rfl

@[simp] theorem addCode_inst (c : CodeEntry) : (s.addCode c).inst = s.inst := rfl
@[simp] theorem addCode_node (c : CodeEntry) : (s.addCode c).node = s.node := rfl
@[simp] theorem addCode_root (c : CodeEntry) : (s.addCode c).root = s.root := rfl
@[simp] theorem addCode_code (c : CodeEntry) : (s.addCode c).code = s.code := rfl
@[simp] theorem addCode_ready (c : CodeEntry) : (s.addCode c).ready = s.ready := rfl
@[simp] theorem addCode_res (c : CodeEntry) : (s.addCode c).res = s.res := rfl
@[simp] theorem addCode_inp (c : CodeEntry) : (s.addCode c).inp = s.inp := rfl
@[simp] theorem addCode_inLen (c : CodeEntry) : (s.addCode c).inLen = s.inLen := rfl
@[simp] theorem addCode_out (c : CodeEntry) : (s.addCode c).out = s.out := rfl
@[simp] theorem addCode_outLen (c : CodeEntry) : (s.addCode c).outLen = s.outLen := rfl
@[simp] theorem addCode_live (c : CodeEntry) : (s.addCode c).live = s.live := rfl
@[simp] theorem addCode_nn (c : CodeEntry) : (s.addCode c).nn = s.nn := rfl
@[simp] theorem addCode_acc (c : CodeEntry) : (s.addCode c).acc = s.acc ||| (c.bits.zeroExtend 39 <<< s.bc.toNat) := rfl
@[simp] theorem addCode_bc (c : CodeEntry) : (s.addCode c).bc = s.bc + c.len := rfl
@[simp] theorem addCode_cur (c : CodeEntry) : (s.addCode c).cur = s.cur := rfl
@[simp] theorem addCode_k (c : CodeEntry) : (s.addCode c).k = s.k := rfl
@[simp] theorem addCode_phase (c : CodeEntry) : (s.addCode c).phase = s.phase := rfl
@[simp] theorem addCode_host (c : CodeEntry) : (s.addCode c).host = s.host := rfl
@[simp] theorem addCode_draws (c : CodeEntry) : (s.addCode c).draws = s.draws := rfl

@[simp] theorem dropByte_inst : (s.dropByte).inst = s.inst := rfl
@[simp] theorem dropByte_node : (s.dropByte).node = s.node := rfl
@[simp] theorem dropByte_root : (s.dropByte).root = s.root := rfl
@[simp] theorem dropByte_code : (s.dropByte).code = s.code := rfl
@[simp] theorem dropByte_ready : (s.dropByte).ready = s.ready := rfl
@[simp] theorem dropByte_res : (s.dropByte).res = s.res := rfl
@[simp] theorem dropByte_inp : (s.dropByte).inp = s.inp := rfl
@[simp] theorem dropByte_inLen : (s.dropByte).inLen = s.inLen := rfl
@[simp] theorem dropByte_out : (s.dropByte).out = s.out := rfl
@[simp] theorem dropByte_outLen : (s.dropByte).outLen = s.outLen := rfl
@[simp] theorem dropByte_live : (s.dropByte).live = s.live := rfl
@[simp] theorem dropByte_nn : (s.dropByte).nn = s.nn := rfl
@[simp] theorem dropByte_acc : (s.dropByte).acc = s.acc >>> 8 := rfl
@[simp] theorem dropByte_bc : (s.dropByte).bc = s.bc - 8 := rfl
@[simp] theorem dropByte_cur : (s.dropByte).cur = s.cur := rfl
@[simp] theorem dropByte_k : (s.dropByte).k = s.k := rfl
@[simp] theorem dropByte_phase : (s.dropByte).phase = s.phase := rfl
@[simp] theorem dropByte_host : (s.dropByte).host = s.host := rfl
@[simp] theorem dropByte_draws : (s.dropByte).draws = s.draws := rfl

@[simp] theorem hostWriteIn_inst (bs : List Byte) : (hostWriteIn bs s).inst = s.inst := rfl
@[simp] theorem hostWriteIn_node (bs : List Byte) : (hostWriteIn bs s).node = s.node := rfl
@[simp] theorem hostWriteIn_root (bs : List Byte) : (hostWriteIn bs s).root = s.root := rfl
@[simp] theorem hostWriteIn_code (bs : List Byte) : (hostWriteIn bs s).code = s.code := rfl
@[simp] theorem hostWriteIn_ready (bs : List Byte) : (hostWriteIn bs s).ready = s.ready := rfl
@[simp] theorem hostWriteIn_res (bs : List Byte) : (hostWriteIn bs s).res = s.res := rfl
@[simp] theorem hostWriteIn_inp (bs : List Byte) : (hostWriteIn bs s).inp = Memory.ofBytes 0 bs := rfl
@[simp] theorem hostWriteIn_inLen (bs : List Byte) : (hostWriteIn bs s).inLen = bs.length := rfl
@[simp] theorem hostWriteIn_out (bs : List Byte) : (hostWriteIn bs s).out = s.out := rfl
@[simp] theorem hostWriteIn_outLen (bs : List Byte) : (hostWriteIn bs s).outLen = s.outLen := rfl
@[simp] theorem hostWriteIn_live (bs : List Byte) : (hostWriteIn bs s).live = s.live := rfl
@[simp] theorem hostWriteIn_nn (bs : List Byte) : (hostWriteIn bs s).nn = s.nn := rfl
@[simp] theorem hostWriteIn_acc (bs : List Byte) : (hostWriteIn bs s).acc = s.acc := rfl
@[simp] theorem hostWriteIn_bc (bs : List Byte) : (hostWriteIn bs s).bc = s.bc := rfl
@[simp] theorem hostWriteIn_cur (bs : List Byte) : (hostWriteIn bs s).cur = s.cur := rfl
@[simp] theorem hostWriteIn_k (bs : List Byte) : (hostWriteIn bs s).k = s.k := rfl
@[simp] theorem hostWriteIn_phase (bs : List Byte) : (hostWriteIn bs s).phase = s.phase := rfl
@[simp] theorem hostWriteIn_host (bs : List Byte) : (hostWriteIn bs s).host = s.host := rfl
@[simp] theorem hostWriteIn_draws (bs : List Byte) : (hostWriteIn bs s).draws = s.draws := rfl

@[simp] theorem withHost_inst (h : List HostAction) : (s.withHost h).inst = s.inst := rfl
@[simp] theorem withHost_node (h : List HostAction) : (s.withHost h).node = s.node := rfl
@[simp] theorem withHost_root (h : List HostAction) : (s.withHost h).root = s.root := rfl
@[simp] theorem withHost_code (h : List HostAction) : (s.withHost h).code = s.code := rfl
@[simp] theorem withHost_ready (h : List HostAction) : (s.withHost h).ready = s.ready := rfl
@[simp] theorem withHost_res (h : List HostAction) : (s.withHost h).res = s.res := rfl
@[simp] theorem withHost_inp (h : List HostAction) : (s.withHost h).inp = s.inp := rfl
@[simp] theorem withHost_inLen (h : List HostAction) : (s.withHost h).inLen = s.inLen := rfl
@[simp] theorem withHost_out (h : List HostAction) : (s.withHost h).out = s.out := rfl
@[simp] theorem withHost_outLen (h : List HostAction) : (s.withHost h).outLen = s.outLen := rfl
@[simp] theorem withHost_live (h : List HostAction) : (s.withHost h).live = s.live := rfl
@[simp] theorem withHost_nn (h : List HostAction) : (s.withHost h).nn = s.nn := rfl
@[simp] theorem withHost_acc (h : List HostAction) : (s.withHost h).acc = s.acc := rfl
@[simp] theorem withHost_bc (h : List HostAction) : (s.withHost h).bc = s.bc := rfl
@[simp] theorem withHost_cur (h : List HostAction) : (s.withHost h).cur = s.cur := rfl
@[simp] theorem withHost_k (h : List HostAction) : (s.withHost h).k = s.k := rfl
@[simp] theorem withHost_phase (h : List HostAction) : (s.withHost h).phase = s.phase := rfl
@[simp] theorem withHost_host (h : List HostAction) : (s.withHost h).host = h := rfl
@[simp] theorem withHost_draws (h : List HostAction) : (s.withHost h).draws = s.draws := rfl

@[simp] theorem hostReset_ready : (hostReset s).ready = false := rfl
@[simp] theorem hostReset_res : (hostReset s).res = .ok := rfl
@[simp] theorem hostReset_inp : (hostReset s).inp = [] := rfl
@[simp] theorem hostReset_inLen : (hostReset s).inLen = 0 := rfl
@[simp] theorem hostReset_out : (hostReset s).out = [] := rfl
@[simp] theorem hostReset_outLen : (hostReset s).outLen = 0 := rfl
@[simp] theorem hostReset_phase : (hostReset s).phase = .idle := rfl
@[simp] theorem hostReset_host : (hostReset s).host = s.host := by simp only [hostReset]
@[simp] theorem hostReset_inst : (hostReset s).inst = s.inst := by simp only [hostReset]
@[simp] theorem hostReset_draws : (hostReset s).draws = s.draws + 1 := rfl

end Sys2Proof.Machine
end

