-- ==== Sys2Proof/Laws/Ops.lean ====
section
/-! SUPPORT. What the shared operations can do: sequencing, the append to `OUT`, and the capacity test. -/

namespace Sys2Proof.Machine

@[simp] theorem andThen_next (s : State) (f : State → Host.Outcome State Fault Refusal) :
    andThen (.next s) f = f s := rfl

@[simp] theorem andThen_fault (e : Fault) (f : State → Host.Outcome State Fault Refusal) :
    andThen (.fault e) f = .fault e := rfl

@[simp] theorem andThen_refused (r : Refusal) (f : State → Host.Outcome State Fault Refusal) :
    andThen (.refused r) f = .refused r := rfl

/-- A sequence answers a next state exactly when both parts do. -/
theorem andThen_eq_next {o : Host.Outcome State Fault Refusal} {f : State → Host.Outcome State Fault Refusal}
    {t : State} : andThen o f = .next t ↔ ∃ s, o = .next s ∧ f s = .next t := by
  cases o <;> simp

/-- A sequence faults when its first part does, or its second on the state of the first. -/
theorem andThen_eq_fault {o : Host.Outcome State Fault Refusal} {f : State → Host.Outcome State Fault Refusal}
    {e : Fault} : andThen o f = .fault e ↔ o = .fault e ∨ ∃ s, o = .next s ∧ f s = .fault e := by
  cases o <;> simp

theorem andThen_assoc (o : Host.Outcome State Fault Refusal) (f g : State → Host.Outcome State Fault Refusal) :
    andThen (andThen o f) g = andThen o fun s => andThen (f s) g := by
  cases o <;> rfl

@[simp] theorem fits_none (n : Nat) : fits n none = true := rfl

@[simp] theorem fits_some (n c : Nat) : fits n (some c) = decide (n ≤ c) := rfl

/-- A smaller number of bytes fits where a larger one does. -/
theorem fits_mono {m n : Nat} {cap : Option Nat} (h : m ≤ n) (hn : fits n cap = true) : fits m cap = true := by
  cases cap with
  | none => rfl
  | some c => simp at *; omega

theorem fits_zero (cap : Option Nat) : fits 0 cap = true := by cases cap <;> simp

/-- The append answers the appended state exactly when there is room. -/
theorem emitByte_eq_next {v : Byte} {s t : State} :
    emitByte v s = .next t ↔ fits (s.outLen + 1) s.inst.outMax = true ∧ t = s.append v := by
  unfold emitByte
  split
  · rename_i hf
    constructor
    · rintro ⟨⟩
      exact ⟨hf, rfl⟩
    · rintro ⟨-, rfl⟩
      rfl
  · rename_i hf
    constructor
    · rintro ⟨⟩
    · rintro ⟨h, -⟩
      exact absurd h hf

/-- The append never faults. -/
theorem emitByte_ne_fault (v : Byte) (s : State) (e : Fault) : emitByte v s ≠ .fault e := by
  unfold emitByte
  split <;> simp

/-- The failure operation, whole (R186). -/
theorem raise_eq (c : Result) (s : State) : raise c s = { s with res := c, outLen := 0, out := [] } := rfl

/-- `RES` as bits and back (R82). -/
@[simp] theorem ofBits_toBits (r : Result) : Result.ofBits r.toBits = r := by cases r <;> rfl

@[simp] theorem toBits_ofBits (b : BitVec 2) : (Result.ofBits b).toBits = b := by
  revert b
  decide

end Sys2Proof.Machine
end

