-- ==== Sys2Proof/Laws/Builder.lean ====
section
/-! SUPPORT. What the tree builder's parts do: the order on nodes (R113), the selection of the smallest live node (R112), the
length and the end of the selection loop (R115), and when the tables are built (R9). -/

namespace Sys2Proof.Machine

/-- The order of R113 in words. -/
theorem smaller_iff (a b : LiveNode) : smaller a b = true ↔ a.f < b.f ∨ (a.f = b.f ∧ b.n < a.n) := by
  simp [smaller, Nat.blt_eq]

/-- The order is total on nodes of different index (R113). -/
theorem smaller_total {a b : LiveNode} (h : a.n ≠ b.n) (hab : smaller a b = false) : smaller b a = true := by
  have h1 : ¬ (a.f < b.f ∨ (a.f = b.f ∧ b.n < a.n)) := by rw [← smaller_iff, hab]; simp
  rw [smaller_iff]
  omega

theorem smaller_trans {a b c : LiveNode} (hab : smaller a b = true) (hbc : smaller b c = true) :
    smaller a c = true := by
  rw [smaller_iff] at *
  omega

/-- The selection takes one node out of `LIVE` and keeps the others. -/
theorem takeMin_perm {l : List LiveNode} {m : LiveNode} {r : List LiveNode} (h : takeMin l = some (m, r)) :
    (m :: r).Perm l := by
  induction l generalizing m r with
  | nil => cases h
  | cons x xs ih =>
    rw [takeMin] at h
    split at h
    · rename_i hn
      cases h
      cases xs with
      | nil => exact .refl _
      | cons y ys =>
        rw [takeMin] at hn
        split at hn
        · cases hn
        · split at hn <;> cases hn
    · rename_i m' r' h'
      split at h
      · cases h; exact .refl _
      · cases h
        exact (List.Perm.swap _ _ _).trans ((ih h').cons x)

/-- There is a smallest node whenever there is a node. -/
theorem takeMin_isSome {l : List LiveNode} (h : l ≠ []) : ∃ m r, takeMin l = some (m, r) := by
  cases l with
  | nil => exact absurd rfl h
  | cons x xs =>
    rw [takeMin]
    split
    · exact ⟨_, _, rfl⟩
    · split <;> exact ⟨_, _, rfl⟩

theorem takeMin_length {l : List LiveNode} {m : LiveNode} {r : List LiveNode} (h : takeMin l = some (m, r)) :
    r.length + 1 = l.length := by
  simpa using (takeMin_perm h).length_eq

/-- The node taken is smaller than every node left, in the order of R113. -/
theorem takeMin_min {l : List LiveNode} {m : LiveNode} {r : List LiveNode} (hn : (l.map LiveNode.n).Nodup)
    (h : takeMin l = some (m, r)) : ∀ x ∈ r, smaller m x = true := by
  induction l generalizing m r with
  | nil => cases h
  | cons x xs ih =>
    obtain ⟨hx, hxs⟩ : x.n ∉ xs.map LiveNode.n ∧ (xs.map LiveNode.n).Nodup := by simpa using hn
    rw [takeMin] at h
    split at h
    · cases h; simp
    · rename_i m' r' h'
      have hp := takeMin_perm h'
      have hmin := ih hxs h'
      split at h
      · rename_i hs
        cases h
        intro y hy
        rcases List.mem_cons.mp (hp.mem_iff.mpr hy) with rfl | hy
        · exact hs
        · exact smaller_trans hs (hmin y hy)
      · rename_i hs
        cases h
        intro y hy
        rcases List.mem_cons.mp hy with rfl | hy
        · refine smaller_total ?_ (by simpa using hs)
          intro he
          exact hx (he ▸ List.mem_map_of_mem (hp.mem_iff.mp (by simp)))
        · exact hmin y hy

/-- One iteration of the selection loop (R112, R114). -/
theorem mergeLoop_succ {k nn : Nat} {live : List LiveNode} (h : 2 ≤ live.length) :
    ∃ a b live1 live2, takeMin live = some (a, live1) ∧ takeMin live1 = some (b, live2) ∧
      mergeLoop (k + 1) nn live =
        (mergeNode a b :: (mergeLoop k (nn + 1) (⟨nn, a.f + b.f⟩ :: live2)).1,
          (mergeLoop k (nn + 1) (⟨nn, a.f + b.f⟩ :: live2)).2) := by
  obtain ⟨a, live1, h1⟩ := takeMin_isSome (l := live) (by rintro rfl; simp at h)
  have l1 := takeMin_length h1
  obtain ⟨b, live2, h2⟩ := takeMin_isSome (l := live1) (by rintro rfl; simp at l1; omega)
  refine ⟨a, b, live1, live2, h1, h2, ?_⟩
  rw [mergeLoop]
  simp only [h1, h2]

/-- Every iteration makes one node, and shrinks `LIVE` by one (R112). -/
theorem mergeLoop_length (k nn : Nat) (live : List LiveNode) (h : live.length = k + 1) :
    (mergeLoop k nn live).1.length = k ∧ (mergeLoop k nn live).2.length = 1 := by
  induction k generalizing nn live with
  | zero => simpa [mergeLoop] using h
  | succ k ih =>
    obtain ⟨a, b, live1, live2, h1, h2, he⟩ := mergeLoop_succ (k := k) (nn := nn) (live := live) (by omega)
    have l1 := takeMin_length h1
    have l2 := takeMin_length h2
    have := ih (nn + 1) (⟨nn, a.f + b.f⟩ :: live2) (by simp; omega)
    rw [he]
    exact ⟨by simpa using this.1, this.2⟩

/-- The one member of `LIVE` after the last merge is the last node made (R115). -/
theorem mergeLoop_root (k nn : Nat) (live : List LiveNode) (h : live.length = k + 2) :
    ∃ f, (mergeLoop (k + 1) nn live).2 = [⟨nn + k, f⟩] := by
  induction k generalizing nn live with
  | zero =>
    obtain ⟨a, b, live1, live2, h1, h2, he⟩ := mergeLoop_succ (k := 0) (nn := nn) (live := live) (by omega)
    have l1 := takeMin_length h1
    have l2 := takeMin_length h2
    have h0 : live2 = [] := List.length_eq_zero_iff.mp (by omega)
    rw [he, h0]
    exact ⟨a.f + b.f, rfl⟩
  | succ k ih =>
    obtain ⟨a, b, live1, live2, h1, h2, he⟩ := mergeLoop_succ (k := k + 1) (nn := nn) (live := live) (by omega)
    have l1 := takeMin_length h1
    have l2 := takeMin_length h2
    obtain ⟨f, hf⟩ := ih (nn + 1) (⟨nn, a.f + b.f⟩ :: live2) (by simp; omega)
    rw [he]
    exact ⟨f, by rw [hf, show nn + 1 + k = nn + (k + 1) by omega]⟩

@[simp] theorem liveFrom_length (i : Nat) (freq : List Freq) : (liveFrom i freq).length = freq.length := by
  induction freq generalizing i with
  | nil => rfl
  | cons f fs ih => simp [liveFrom, ih]

theorem liveFrom_indices (i : Nat) (freq : List Freq) :
    (liveFrom i freq).map LiveNode.n = List.range' i freq.length := by
  induction freq generalizing i with
  | nil => rfl
  | cons f fs ih => simp [liveFrom, ih, List.range'_succ]

theorem builtNode_length {freq : List Freq} (h : freq.length = Config.nsym) :
    (builtNode freq).length = Config.nnode := by
  have := (mergeLoop_length (Config.nsym - 1) Config.nsym (liveFrom 0 freq) (by simp [h]; decide)).1
  simp only [builtNode, leaves, List.length_append, List.length_map, this, h]
  decide

/-- The tables are built exactly when the sum and the depth allow it, and then the arena is the one of R111 to R114, the
root 512 (R115), and `CODE` what `ASSIGN` writes (R116). -/
theorem buildTables_eq_some {freq : List Freq} {t : Tables} (h : freq.length = Config.nsym) :
    buildTables freq = some t ↔
      (freq.map BitVec.toNat).sum < 2 ^ 32 ∧ t.node = builtNode freq ∧ t.root = 512 ∧
        assign (builtNode freq) Config.codeMax 512 0 0 (List.replicate Config.nsym ⟨0, 0⟩) = some t.code := by
  obtain ⟨f, hf⟩ := mergeLoop_root 255 257 (liveFrom 0 freq) (by simp [h]; decide)
  have hf' : (mergeLoop (Config.nsym - 1) Config.nsym (liveFrom 0 freq)).2 = [⟨512, f⟩] := hf
  unfold buildTables
  by_cases hs : 2 ^ 32 ≤ (freq.map BitVec.toNat).sum
  · rw [if_pos hs]
    constructor
    · intro h; cases h
    · rintro ⟨h, -⟩; omega
  · rw [if_neg hs]
    simp only [hf']
    change (match assign (builtNode freq) Config.codeMax 512 0 0 (List.replicate Config.nsym ⟨0, 0⟩) with
      | some code => some { node := builtNode freq, root := 512, code := code }
      | none => none) = some t ↔ _
    split
    · rename_i code hc
      rw [hc]
      constructor
      · rintro ⟨⟩
        exact ⟨by omega, rfl, rfl, rfl⟩
      · rintro ⟨-, h1, h2, h3⟩
        cases h3
        rw [← h1, ← h2]
    · rename_i hc
      rw [hc]
      constructor
      · intro h; cases h
      · rintro ⟨-, -, -, h⟩; cases h

theorem assign_leaf {node : List Node} {n : NodeIdx} (hn : n.toNat ≤ 256) (room : Nat) (bits : BitVec 32) (d : Nat)
    (code : List CodeEntry) : assign node room n bits d code = some (writeCode n bits d code) := by
  cases room <;> rw [assign, if_pos hn]

/-- At an internal node `ASSIGN` answers when there is room for a level more and it answers at both children (R116). -/
theorem assign_internal {node : List Node} {n : NodeIdx} (hn : 256 < n.toNat) {room : Nat} {bits : BitVec 32} {d : Nat}
    {code code' : List CodeEntry} :
    assign node room n bits d code = some code' ↔ ∃ room' nd code1, room = room' + 1 ∧ node[n.toNat]? = some nd ∧
      assign node room' nd.c0 bits (d + 1) code = some code1 ∧
      assign node room' nd.c1 (bits ||| (1#32 <<< d)) (d + 1) code1 = some code' := by
  cases room with
  | zero => simp [assign, show ¬ n.toNat ≤ 256 by omega]
  | succ room =>
    rw [assign, if_neg (show ¬ n.toNat ≤ 256 by omega)]
    cases node[n.toNat]? with
    | none => simp
    | some nd =>
      dsimp only
      cases h : assign node room nd.c0 bits (d + 1) code with
      | none =>
        dsimp only
        refine ⟨(fun h => by cases h), ?_⟩
        rintro ⟨r, nd', c1, hr, hnd, h1, -⟩
        cases hr; cases hnd
        rw [h] at h1
        cases h1
      | some c1 =>
        dsimp only
        constructor
        · intro h2
          exact ⟨room, nd, c1, rfl, rfl, h, h2⟩
        · rintro ⟨r, nd', c1', hr, hnd, h1, h2⟩
          cases hr; cases hnd
          rw [h] at h1
          cases h1
          exact h2

/-- `ASSIGN` keeps the number of entries. -/
theorem assign_length {node : List Node} {room : Nat} {n : NodeIdx} {bits : BitVec 32} {d : Nat}
    {code code' : List CodeEntry} (h : assign node room n bits d code = some code') : code'.length = code.length := by
  induction room generalizing n bits d code code' with
  | zero =>
    by_cases hn : n.toNat ≤ 256
    · rw [assign_leaf hn] at h
      cases h
      simp [writeCode]
    · obtain ⟨r, -, -, hr, -⟩ := (assign_internal (by omega)).mp h
      omega
  | succ room ih =>
    by_cases hn : n.toNat ≤ 256
    · rw [assign_leaf hn] at h
      cases h
      simp [writeCode]
    · obtain ⟨r, nd, c1, hr, -, h1, h2⟩ := (assign_internal (by omega)).mp h
      cases hr
      rw [ih h2, ih h1]

/-- The tables INIT builds have 513 nodes and 257 codes (R23, R26). -/
theorem buildTables_lengths {freq : List Freq} {t : Tables} (h : freq.length = Config.nsym)
    (ht : buildTables freq = some t) : t.node.length = Config.nnode ∧ t.code.length = Config.nsym := by
  obtain ⟨-, h1, -, h2⟩ := (buildTables_eq_some h).mp ht
  exact ⟨by rw [h1, builtNode_length h], by rw [assign_length h2]; simp⟩

/-- What INIT can do when it answers a next state (R117, R119). -/
theorem execInit_eq_next {s t : State} (h : execInit s = .next t) :
    (s.inst.freq.length ≠ Config.nsym ∧ t = raise .configurationError { s with ready := false }) ∨
    (s.inst.freq.length = Config.nsym ∧ ∃ x, buildTables s.inst.freq = some x ∧
      t = releaseBuilder (succeed (loadTables x s))) := by
  unfold execInit at h
  split at h
  · rename_i hl
    split at h
    · rename_i x hx
      cases h
      exact .inr ⟨hl, x, hx, rfl⟩
    · cases h
  · rename_i hl
    cases h
    exact .inl ⟨hl, rfl⟩

end Sys2Proof.Machine
end

