-- ==== Sys2Proof/Laws/Decoder.lean ====
section
/-! SUPPORT. What the decoder's operations can do: one turn of the loop by cases, the loop over a bit list in two parts,
and what they leave alone. -/

namespace Sys2Proof.Machine

/-- Only `OUT`, `OUT_LEN`, `CUR`, `K`, and at the end of the command `RES`, the phase and the draws, differ. -/
def DecoderFrame (s t : State) : Prop :=
  t = { s with out := t.out, outLen := t.outLen, cur := t.cur, k := t.k, res := t.res, phase := t.phase, draws := t.draws }

theorem DecoderFrame.refl (s : State) : DecoderFrame s s := rfl

theorem DecoderFrame.trans {s t u : State} (h : DecoderFrame s t) (h' : DecoderFrame t u) : DecoderFrame s u := by
  unfold DecoderFrame at *
  rw [h'] ; rw [h]

/-- A byte leaf, by whether there is room for its byte (R164, R217). -/
theorem byteLeaf_eq (leaf : NodeIdx) (s : State) :
    byteLeaf leaf s = if fits (s.outLen + 1) s.inst.outMax then
      .going ((s.append (leaf.setWidth 8)).moveTo s.root) else .ended (.refused .outputOverflow) := by
  unfold byteLeaf emitByte
  by_cases hf : fits (s.outLen + 1) s.inst.outMax = true
  · rw [if_pos hf, if_pos hf]
    rfl
  · rw [if_neg hf, if_neg hf]

/-- One turn that goes on: the branch led to a byte leaf with room for the byte, or to an internal node (R163, R164). -/
theorem decodeBit_going {bit : Bool} {s t : State} (h : decodeBit bit s = .going t) :
    ∃ nd, s.nodeAt s.cur = some nd ∧ branch bit nd ≠ Config.null ∧ branch bit nd ≠ Config.eos ∧
      (((branch bit nd).toNat ≤ 256 ∧ fits (s.outLen + 1) s.inst.outMax = true ∧
          t = (s.countBit.append ((branch bit nd).setWidth 8)).moveTo s.root) ∨
        (256 < (branch bit nd).toNat ∧ t = s.countBit.moveTo (branch bit nd))) := by
  unfold decodeBit at h
  split at h
  · cases h
  · rename_i nd hnd
    refine ⟨nd, hnd, ?_⟩
    dsimp only at h
    split at h
    · cases h
    · rename_i hnull
      split at h
      · cases h
      · rename_i heos
        refine ⟨hnull, heos, ?_⟩
        split at h
        · rename_i hle
          rw [byteLeaf_eq] at h
          split at h
          · rename_i hf
            cases h
            exact .inl ⟨hle, hf, rfl⟩
          · cases h
        · rename_i hle
          cases h
          exact .inr ⟨by omega, rfl⟩

/-- One turn that ends the command: no such node, a missing child (R166), the EOS leaf (R164), or no room. -/
theorem decodeBit_ended {bit : Bool} {s : State} {o : Host.Outcome State Fault Refusal}
    (h : decodeBit bit s = .ended o) :
    (s.nodeAt s.cur = none ∧ o = .fault .noSuchNode) ∨
    ∃ nd, s.nodeAt s.cur = some nd ∧
      ((branch bit nd = Config.null ∧ o = .next (raise .corruptStream (releaseDecoder s.countBit))) ∨
       (branch bit nd = Config.eos ∧ o = .next (succeed (releaseDecoder s.countBit))) ∨
       (fits (s.outLen + 1) s.inst.outMax = false ∧ o = .refused .outputOverflow)) := by
  unfold decodeBit at h
  split at h
  · rename_i hn
    cases h
    exact .inl ⟨hn, rfl⟩
  · rename_i nd hnd
    refine .inr ⟨nd, hnd, ?_⟩
    dsimp only at h
    split at h
    · rename_i hnull
      cases h
      exact .inl ⟨hnull, rfl⟩
    · split at h
      · rename_i heos
        cases h
        exact .inr (.inl ⟨heos, rfl⟩)
      · split at h
        · rw [byteLeaf_eq] at h
          split at h
          · cases h
          · rename_i hf
            cases h
            exact .inr (.inr ⟨by simpa using hf, rfl⟩)
        · cases h

@[simp] theorem decodeBits_nil (s : State) : decodeBits [] s = .going s := rfl

/-- The loop over two bit lists in a row is the loop over the first, then over the second. -/
theorem decodeBits_append (p q : List Bool) (s : State) :
    decodeBits (p ++ q) s = match decodeBits p s with
      | .going s' => decodeBits q s'
      | .ended o => .ended o := by
  induction p generalizing s with
  | nil => rfl
  | cons b p ih =>
    simp only [List.cons_append, decodeBits]
    cases decodeBit b s with
    | going s' => simp [ih]
    | ended o => rfl

/-- What follows the bits that end the command is not read (R164, R169). -/
theorem decodeBits_append_of_ended {p : List Bool} {s : State} {o : Host.Outcome State Fault Refusal}
    (h : decodeBits p s = .ended o) (q : List Bool) : decodeBits (p ++ q) s = .ended o := by
  rw [decodeBits_append, h]

theorem decodeBits_append_of_going {p : List Bool} {s s' : State} (h : decodeBits p s = .going s') (q : List Bool) :
    decodeBits (p ++ q) s = decodeBits q s' := by
  rw [decodeBits_append, h]

theorem decodeBit_going_frame {bit : Bool} {s t : State} (h : decodeBit bit s = .going t) : DecoderFrame s t := by
  obtain ⟨nd, -, -, -, ⟨-, -, rfl⟩ | ⟨-, rfl⟩⟩ := decodeBit_going h <;> rfl

theorem decodeBit_ended_frame {bit : Bool} {s t : State} (h : decodeBit bit s = .ended (.next t)) :
    DecoderFrame s t := by
  rcases decodeBit_ended h with ⟨-, h⟩ | ⟨nd, -, ⟨-, h⟩ | ⟨-, h⟩ | ⟨-, h⟩⟩ <;> cases h <;> rfl

theorem decodeBits_going_frame {bs : List Bool} {s t : State} (h : decodeBits bs s = .going t) : DecoderFrame s t := by
  induction bs generalizing s with
  | nil => cases h; exact .refl _
  | cons b bs ih =>
    rw [decodeBits] at h
    split at h
    · rename_i h1
      exact (decodeBit_going_frame h1).trans (ih h)
    · cases h

theorem decodeBits_ended_frame {bs : List Bool} {s t : State} (h : decodeBits bs s = .ended (.next t)) :
    DecoderFrame s t := by
  induction bs generalizing s with
  | nil => cases h
  | cons b bs ih =>
    rw [decodeBits] at h
    split at h
    · rename_i h1
      exact (decodeBit_going_frame h1).trans (ih h)
    · rename_i o h1
      cases h
      exact decodeBit_ended_frame h1

theorem endOfInput_frame {bs : List Bool} {s t : State} (h : endOfInput (decodeBits bs s) = .next t) :
    DecoderFrame s t := by
  unfold endOfInput at h
  split at h
  · rename_i s' h1
    cases h
    exact (decodeBits_going_frame h1).trans rfl
  · rename_i o h1
    subst h
    exact decodeBits_ended_frame h1

/-- A walk that goes on has taken every bit, and each counts in `K` (R162). -/
theorem decodeBits_going_k {bs : List Bool} {s t : State} (h : decodeBits bs s = .going t) : t.k = s.k + bs.length := by
  induction bs generalizing s with
  | nil => cases h; rfl
  | cons b bs ih =>
    rw [decodeBits] at h
    split at h
    · rename_i s' h1
      rw [ih h]
      obtain ⟨nd, -, -, -, ⟨-, -, rfl⟩ | ⟨-, rfl⟩⟩ := decodeBit_going h1 <;> simp <;> omega
    · cases h

/-- What DECOMPRESS can do when it answers a next state. -/
theorem execDecompress_eq_next {s t : State} (h : execDecompress s = .next t) :
    (s.ready = false ∧ t = raiseIdle .configurationError s) ∨
    (s.ready = true ∧ ∃ bits, s.inputBits = some bits ∧ endOfInput (decodeBits bits (startDecoder s)) = .next t) := by
  unfold execDecompress at h
  split at h
  · rename_i hr
    split at h
    · cases h
    · rename_i bits hb
      exact .inr ⟨hr, bits, hb, h⟩
  · rename_i hr
    cases h
    exact .inl ⟨by simpa using hr, rfl⟩

end Sys2Proof.Machine
end

