-- ==== Sys2Proof/Laws/CodeWords.lean ====
section
/-! SUPPORT. The meanings of the code words in terms of the encoding table, and what a code word can do. -/

namespace Sys2Proof.Machine

/-- Every code word's meaning takes exactly the bits its row encodes it with (R97): the constants written in
Machine/CodeWords.lean are those of the encoding table. -/
theorem exec_codeWord (i : Instr) (s : State) (h : i.isCommand = false) :
    exec i s = consumeCodeWord (encodeRow i).word (encodeRow i).len s := by
  cases i <;> first | rfl | exact absurd h (by decide)

/-- A code word on built tables: the walk over its bits (R163). -/
theorem consumeCodeWord_ready {word len : Nat} {s : State} (h : s.ready = true) :
    consumeCodeWord word len s = match decodeBits (bitsLsb len word) s with
      | .going s' => .next s'
      | .ended o => o := by
  unfold consumeCodeWord
  exact if_pos h

theorem consumeCodeWord_notReady {word len : Nat} {s : State} (h : s.ready = false) :
    consumeCodeWord word len s = .next (raiseIdle .configurationError s) := by
  rw [consumeCodeWord, if_neg (by simp [h])]

/-- What a code word can do when it answers a next state: not ready, or the walk over its bits goes on or ends. -/
theorem consumeCodeWord_eq_next {word len : Nat} {s t : State} (h : consumeCodeWord word len s = .next t) :
    (s.ready = false ∧ t = raiseIdle .configurationError s) ∨
    (s.ready = true ∧ (decodeBits (bitsLsb len word) s = .going t ∨
      decodeBits (bitsLsb len word) s = .ended (.next t))) := by
  cases hr : s.ready with
  | false =>
    rw [consumeCodeWord_notReady hr] at h
    cases h
    exact .inl ⟨rfl, rfl⟩
  | true =>
    rw [consumeCodeWord_ready hr] at h
    split at h
    · rename_i h1
      cases h
      exact .inr ⟨rfl, .inl h1⟩
    · rename_i h1
      subst h
      exact .inr ⟨rfl, .inr h1⟩

/-- A code word leaves the tables, the input and the other units alone (R65). -/
theorem consumeCodeWord_frame {word len : Nat} {s t : State} (h : consumeCodeWord word len s = .next t) :
    DecoderFrame s t := by
  rcases consumeCodeWord_eq_next h with ⟨-, rfl⟩ | ⟨-, h | h⟩
  · rfl
  · exact decodeBits_going_frame h
  · exact decodeBits_ended_frame h

end Sys2Proof.Machine
end

