-- ==== Sys2Proof/Laws/Decode.lean ====
section
/-! SUPPORT. The decoders: what stands at the front of a bit string, and the rows a decoder answers from. -/

namespace Sys2Proof

/-- A prefix is dropped exactly when it is there. -/
theorem dropPrefix_eq_some {p bs rest : List Bool} : dropPrefix p bs = some rest ↔ bs = p ++ rest := by
  induction p generalizing bs with
  | nil => simp [dropPrefix]
  | cons a p ih =>
    cases bs with
    | nil => simp [dropPrefix]
    | cons b bs =>
      rw [dropPrefix]
      split
      · subst_vars
        simp [ih]
      · rename_i hne
        constructor
        · intro h; cases h
        · intro h
          simp only [List.cons_append, List.cons.injEq] at h
          exact absurd h.1.symm hne

/-- What the row search answers is a row whose bits stand at the front. -/
theorem firstMatch_eq_some {rows : List Row} {bs rest : List Bool} {i : Instr}
    (h : firstMatch rows bs = some (i, rest)) : ∃ r ∈ rows, r.instr = i ∧ bs = r.bits ++ rest := by
  induction rows with
  | nil => cases h
  | cons r rows ih =>
    rw [firstMatch] at h
    split at h
    · rename_i rest' hd
      cases h
      exact ⟨r, by simp, rfl, dropPrefix_eq_some.mp hd⟩
    · obtain ⟨r', hr', h1, h2⟩ := ih h
      exact ⟨r', by simp [hr'], h1, h2⟩

/-- The search finds nothing exactly when no row's bits stand at the front. -/
theorem firstMatch_eq_none {rows : List Row} {bs : List Bool} :
    firstMatch rows bs = none ↔ ∀ r ∈ rows, dropPrefix r.bits bs = none := by
  induction rows with
  | nil => simp [firstMatch]
  | cons r rows ih =>
    rw [firstMatch]
    split
    · rename_i h
      simp [h]
    · rename_i h
      simp [h, ih]

@[simp] theorem bitsLsb_length (n w : Nat) : (bitsLsb n w).length = n := by simp [bitsLsb]

@[simp] theorem byteBits_length (b : Byte) : (byteBits b).length = 8 := by simp [byteBits]

/-- A byte list has eight bits a byte (R61). -/
@[simp] theorem bytesBits_length (bs : List Byte) : (bytesBits bs).length = 8 * bs.length := by
  induction bs with
  | nil => rfl
  | cons b bs ih =>
    rw [bytesBits, List.flatMap_cons, List.length_append, byteBits_length]
    rw [bytesBits] at ih
    rw [ih, List.length_cons]
    omega

theorem bytesBits_append (as bs : List Byte) : bytesBits (as ++ bs) = bytesBits as ++ bytesBits bs := by
  simp [bytesBits]

end Sys2Proof
end

