-- ==== Sys2Proof/Laws/DefaultTables.lean ====
section
/-! SUPPORT. INIT on the default `FREQ` builds the tables the spec writes out (95_test_vectors section 6, R99). -/

namespace Sys2Proof.Machine

theorem defaultFreq_length : Config.defaultFreq.length = Config.nsym := by decide +kernel

/-- The selection loop on the default `FREQ` makes the 256 merges of 95_test_vectors section 6. -/
theorem builtNode_default : builtNode Config.defaultFreq = defaultNode := by decide +kernel

theorem defaultFreq_sum : (Config.defaultFreq.map BitVec.toNat).sum < 2 ^ 32 := by decide +kernel

/-- `ASSIGN` on that tree writes the code table of R99. -/
theorem assign_default :
    assign defaultNode Config.codeMax 512 0 0 (List.replicate Config.nsym ⟨0, 0⟩) = some defaultCode := by
  decide +kernel

/-- INIT on the default `FREQ` builds the tables as written out. -/
theorem buildTables_default : buildTables Config.defaultFreq = some defaultTables :=
  (buildTables_eq_some defaultFreq_length).mpr
    ⟨defaultFreq_sum, builtNode_default.symm, rfl, by rw [builtNode_default]; exact assign_default⟩

/-- The quick way to the tables of a `FREQ` gives the tables INIT builds. -/
theorem tablesOf_eq (freq : List Freq) : tablesOf freq = buildTables freq := by
  unfold tablesOf
  split
  · subst_vars
    exact buildTables_default.symm
  · rfl

end Sys2Proof.Machine
end

