-- ==== Sys2Proof/Laws/Encoder.lean ====
section
/-! SUPPORT. What the encoder's operations can do: they write `OUT`, `OUT_LEN`, `ACC`, `BC` and nothing else, they only
append, and they stop only for want of room or of a table entry. -/

namespace Sys2Proof.Machine

/-- Only `OUT`, `OUT_LEN`, `ACC` and `BC` differ. -/
def EncoderFrame (s t : State) : Prop :=
  t = { s with out := t.out, outLen := t.outLen, acc := t.acc, bc := t.bc }

theorem EncoderFrame.refl (s : State) : EncoderFrame s s := rfl

theorem EncoderFrame.trans {s t u : State} (h : EncoderFrame s t) (h' : EncoderFrame t u) : EncoderFrame s u := by
  unfold EncoderFrame at *
  rw [h'] ; rw [h]

theorem append_encoderFrame (v : Byte) (s : State) : EncoderFrame s (s.append v) := rfl
theorem addCode_encoderFrame (c : CodeEntry) (s : State) : EncoderFrame s (s.addCode c) := rfl
theorem dropByte_encoderFrame (s : State) : EncoderFrame s s.dropByte := rfl
theorem startEncoder_encoderFrame (s : State) : EncoderFrame s (startEncoder s) := rfl

theorem emitByte_encoderFrame {v : Byte} {s t : State} (h : emitByte v s = .next t) : EncoderFrame s t := by
  rw [(emitByte_eq_next.mp h).2]
  exact append_encoderFrame v s

theorem flush_encoderFrame {n : Nat} {s t : State} (h : flush n s = .next t) : EncoderFrame s t := by
  induction n generalizing s with
  | zero => cases h; exact .refl _
  | succ n ih =>
    obtain ⟨s1, h1, h2⟩ := andThen_eq_next.mp h
    exact (emitByte_encoderFrame h1).trans ((dropByte_encoderFrame s1).trans (ih h2))

theorem put_encoderFrame {sym : Nat} {s t : State} (h : put sym s = .next t) : EncoderFrame s t := by
  unfold put at h
  split at h
  · cases h
  · exact (addCode_encoderFrame _ s).trans (flush_encoderFrame h)

theorem putAll_encoderFrame {bs : List Byte} {s t : State} (h : putAll bs s = .next t) : EncoderFrame s t := by
  induction bs generalizing s with
  | nil => cases h; exact .refl _
  | cons b bs ih =>
    obtain ⟨s1, h1, h2⟩ := andThen_eq_next.mp h
    exact (put_encoderFrame h1).trans (ih h2)

theorem padLast_encoderFrame {s t : State} (h : padLast s = .next t) : EncoderFrame s t := by
  unfold padLast at h
  split at h
  · cases h; exact .refl _
  · exact emitByte_encoderFrame h

/-- The flush never faults. -/
theorem flush_ne_fault (n : Nat) (s : State) (e : Fault) : flush n s ≠ .fault e := by
  induction n generalizing s with
  | zero => simp [flush]
  | succ n ih =>
    intro h
    rcases andThen_eq_fault.mp h with h | ⟨s1, -, h⟩
    · exact emitByte_ne_fault _ _ _ h
    · exact ih _ h

/-- `PUT` faults only on a symbol the table does not hold. -/
theorem put_eq_fault {sym : Nat} {s : State} {e : Fault} (h : put sym s = .fault e) :
    e = .noSuchCode ∧ s.code.length ≤ sym := by
  unfold put at h
  split at h
  · rename_i hc
    cases h
    exact ⟨rfl, by simpa [State.codeAt] using hc⟩
  · exact absurd h (flush_ne_fault _ _ _)

/-- With the whole table there, `PUT` of bytes does not fault. -/
theorem putAll_ne_fault {s : State} (hc : Config.nsym ≤ s.code.length) (bs : List Byte) (e : Fault) :
    putAll bs s ≠ .fault e := by
  induction bs generalizing s with
  | nil => simp [putAll]
  | cons b bs ih =>
    intro h
    rcases andThen_eq_fault.mp h with h | ⟨s1, h1, h⟩
    · have := (put_eq_fault h).2
      have := b.isLt
      unfold Config.nsym at hc
      omega
    · refine ih ?_ h
      have := put_encoderFrame h1
      unfold EncoderFrame at this
      rw [this]
      exact hc

/-- A filled `OUT` stays filled, and within its capacity, through an append. -/
def OutOk (s : State) : Prop := s.out.filled s.outLen ∧ fits s.outLen s.inst.outMax = true

theorem emitByte_outOk {v : Byte} {s t : State} (h : emitByte v s = .next t) (hs : OutOk s) : OutOk t := by
  obtain ⟨hf, rfl⟩ := emitByte_eq_next.mp h
  exact ⟨Memory.filled_append hs.1 v, hf⟩

theorem flush_outOk {n : Nat} {s t : State} (h : flush n s = .next t) (hs : OutOk s) : OutOk t := by
  induction n generalizing s with
  | zero => cases h; exact hs
  | succ n ih =>
    obtain ⟨s1, h1, h2⟩ := andThen_eq_next.mp h
    have h3 : OutOk s1 := emitByte_outOk h1 hs
    exact ih h2 h3

theorem put_outOk {sym : Nat} {s t : State} (h : put sym s = .next t) (hs : OutOk s) : OutOk t := by
  unfold put at h
  split at h
  · cases h
  · exact flush_outOk h hs

theorem putAll_outOk {bs : List Byte} {s t : State} (h : putAll bs s = .next t) (hs : OutOk s) : OutOk t := by
  induction bs generalizing s with
  | nil => cases h; exact hs
  | cons b bs ih =>
    obtain ⟨s1, h1, h2⟩ := andThen_eq_next.mp h
    exact ih h2 (put_outOk h1 hs)

theorem padLast_outOk {s t : State} (h : padLast s = .next t) (hs : OutOk s) : OutOk t := by
  unfold padLast at h
  split at h
  · cases h; exact hs
  · exact emitByte_outOk h hs

theorem startEncoder_outOk (s : State) : OutOk (startEncoder s) := ⟨Memory.filled_nil, fits_zero _⟩

/-- What COMPRESS can do when it answers a next state: not ready, or the four parts of R140 in order. -/
theorem execCompress_eq_next {s t : State} (h : execCompress s = .next t) :
    (s.ready = false ∧ t = raise .configurationError s) ∨
    (s.ready = true ∧ ∃ bs s1 s2 s3, s.inputBytes = some bs ∧ putAll bs (startEncoder s) = .next s1 ∧
      put Config.eos.toNat s1 = .next s2 ∧ padLast s2 = .next s3 ∧ t = releaseEncoder (succeed s3)) := by
  unfold execCompress at h
  split at h
  · rename_i hr
    split at h
    · cases h
    · rename_i bs hbs
      obtain ⟨s1, h1, h⟩ := andThen_eq_next.mp h
      obtain ⟨s2, h2, h⟩ := andThen_eq_next.mp h
      obtain ⟨s3, h3, h⟩ := andThen_eq_next.mp h
      cases h
      exact .inr ⟨hr, bs, s1, s2, s3, hbs, h1, h2, h3, rfl⟩
  · rename_i hr
    cases h
    exact .inl ⟨by simpa using hr, rfl⟩

end Sys2Proof.Machine
end

