-- ==== Sys2Proof/Laws/Tree.lean ====
section
/-! SUPPORT. The arena while the selection loop (R112 to R115) builds it: every node made so far is a child or live, once
(`Forest`), children are older than their parents, and the live nodes' frequencies are those of the arena and do not wrap
(`FreqOk`). -/

namespace Sys2Proof.Machine

/-- Nodes made later are no part of the children so far. -/
theorem childrenBelow_append {pre : List Node} {post : List Node} {n : Nat} (h : n ≤ pre.length) :
    childrenBelow (pre ++ post) n = childrenBelow pre n := by
  simp only [childrenBelow, List.take_append_of_le_length h]

/-- A new node adds its two children. -/
theorem childrenBelow_snoc {pre : List Node} (nd : Node) (h : 257 ≤ pre.length) :
    childrenBelow (pre ++ [nd]) (pre.length + 1) =
      childrenBelow pre pre.length ++ [nd.c0.toNat, nd.c1.toNat] := by
  unfold childrenBelow
  rw [List.take_of_length_le (by simp), List.take_of_length_le (by simp), List.drop_append_of_le_length h]
  simp

/-- `pre` is the arena so far and `live` is `LIVE`: each node is a child or live, exactly once. -/
structure Forest (pre : List Node) (live : List LiveNode) : Prop where
  long : 257 ≤ pre.length
  perm : (childrenBelow pre pre.length ++ live.map LiveNode.n).Perm (List.range pre.length)
  older : ∀ n, 257 ≤ n → n < pre.length → ∃ nd, pre[n]? = some nd ∧ nd.c0.toNat < n ∧ nd.c1.toNat < n

/-- The live nodes carry the arena's frequencies, and no sum of them wraps. -/
structure FreqOk (pre : List Node) (live : List LiveNode) : Prop where
  freq : ∀ x ∈ live, ∃ nd, pre[x.n]? = some nd ∧ nd.f.toNat = x.f
  sum : (live.map LiveNode.f).sum < 2 ^ 32

theorem Forest.nodup {pre live} (h : Forest pre live) : (live.map LiveNode.n).Nodup :=
  ((h.perm.nodup_iff.mpr List.nodup_range).of_append_right)

theorem Forest.lt {pre live} (h : Forest pre live) {x : LiveNode} (hx : x ∈ live) : x.n < pre.length := by
  have : x.n ∈ List.range pre.length := h.perm.mem_iff.mp (by simp; exact .inr ⟨x, hx, rfl⟩)
  simpa using this

/-- `LIVE` as the statements say it is the builder's `LIVE`. -/
theorem Forest.isLive {pre live} (h : Forest pre live) (post : List Node) (m : Nat) :
    isLive (pre ++ post) pre.length m ↔ ∃ x ∈ live, x.n = m := by
  unfold Machine.isLive
  rw [childrenBelow_append le_rfl]
  have hnd := h.perm.nodup_iff.mpr List.nodup_range
  have hm : m < pre.length ↔ m ∈ childrenBelow pre pre.length ∨ m ∈ live.map LiveNode.n := by
    rw [← List.mem_append, h.perm.mem_iff, List.mem_range]
  rw [hm]
  constructor
  · rintro ⟨h1 | h1, h2⟩
    · exact absurd h1 h2
    · simpa using h1
  · rintro ⟨x, hx, rfl⟩
    have : x.n ∈ live.map LiveNode.n := List.mem_map_of_mem hx
    exact ⟨.inr this, fun hc => (List.disjoint_of_nodup_append hnd) hc this⟩

theorem toNat_ofNat10 {n : Nat} (h : n < 1024) : (BitVec.ofNat 10 n).toNat = n := by
  simp; omega

/-- A merge (R114) keeps the forest. -/
theorem Forest.merge {pre live live1 live2} {a b : LiveNode} (h : Forest pre live) (hl : pre.length ≤ 512)
    (h1 : takeMin live = some (a, live1)) (h2 : takeMin live1 = some (b, live2)) :
    Forest (pre ++ [mergeNode a b]) (⟨pre.length, a.f + b.f⟩ :: live2) := by
  have p1 := takeMin_perm h1
  have p2 := takeMin_perm h2
  have pa : (a :: b :: live2).Perm live := (p2.cons a).trans p1
  have ha := h.lt (pa.mem_iff.mp (by simp) : a ∈ live)
  have hb := h.lt (pa.mem_iff.mp (by simp) : b ∈ live)
  have ta : (mergeNode a b).c0.toNat = a.n := toNat_ofNat10 (by omega)
  have tb : (mergeNode a b).c1.toNat = b.n := toNat_ofNat10 (by omega)
  refine ⟨by simp; have := h.long; omega, ?_, ?_⟩
  · rw [List.length_append, List.length_singleton, childrenBelow_snoc _ h.long, ta, tb, List.range_succ]
    have hp : (childrenBelow pre pre.length ++ (a :: b :: live2).map LiveNode.n).Perm (List.range pre.length) :=
      (List.Perm.append_left _ (pa.map _)).trans h.perm
    simp only [List.map_cons] at hp ⊢
    have e : childrenBelow pre pre.length ++ [a.n, b.n] ++ pre.length :: List.map LiveNode.n live2 =
      (childrenBelow pre pre.length ++ [a.n, b.n]) ++ pre.length :: List.map LiveNode.n live2 := rfl
    rw [e]
    refine List.perm_middle.trans ?_
    refine List.Perm.trans ?_ (List.perm_append_singleton _ _).symm
    refine List.Perm.cons _ ?_
    simpa using hp
  · intro n hn hn'
    rw [List.length_append, List.length_singleton] at hn'
    rcases Nat.lt_succ_iff_lt_or_eq.mp hn' with hlt | rfl
    · obtain ⟨nd, e, hc⟩ := h.older n hn hlt
      exact ⟨nd, by rw [List.getElem?_append_left hlt]; exact e, hc⟩
    · exact ⟨mergeNode a b, by simp, by omega, by omega⟩

/-- A merge adds the two frequencies exactly (R114). -/
theorem FreqOk.merge {pre live live1 live2} {a b : LiveNode} (h : FreqOk pre live) (hF : Forest pre live)
    (h1 : takeMin live = some (a, live1)) (h2 : takeMin live1 = some (b, live2)) :
    (mergeNode a b).f.toNat = a.f + b.f ∧
    FreqOk (pre ++ [mergeNode a b]) (⟨pre.length, a.f + b.f⟩ :: live2) := by
  have pa : (a :: b :: live2).Perm live := ((takeMin_perm h2).cons a).trans (takeMin_perm h1)
  have hs := (pa.map LiveNode.f).sum_eq
  have hsum := h.sum
  simp only [List.map_cons, List.sum_cons] at hs
  have hf : (mergeNode a b).f.toNat = a.f + b.f := by
    simp only [mergeNode, BitVec.toNat_ofNat]
    omega
  refine ⟨hf, ?_, ?_⟩
  · intro x hx
    rcases List.mem_cons.mp hx with rfl | hx
    · exact ⟨mergeNode a b, by simp, hf⟩
    · have hx' : x ∈ live := pa.mem_iff.mp (by simp [hx])
      obtain ⟨nd, e, hc⟩ := h.freq x hx'
      exact ⟨nd, by rw [List.getElem?_append_left (hF.lt hx')]; exact e, hc⟩
  · simp only [List.map_cons, List.sum_cons]; omega

/-- The whole loop leaves a forest with one live node, the root. -/
theorem mergeLoop_forest (k : Nat) {pre live} (h : Forest pre live) (hl : live.length = k + 1) (hk : pre.length + k = 513) :
    ∃ live', live'.length = 1 ∧ Forest (pre ++ (mergeLoop k pre.length live).1) live' := by
  induction k generalizing pre live with
  | zero => exact ⟨live, hl, by simpa [mergeLoop] using h⟩
  | succ k ih =>
    obtain ⟨a, b, live1, live2, h1, h2, he⟩ := mergeLoop_succ (k := k) (nn := pre.length) (live := live) (by omega)
    have l1 := takeMin_length h1
    have l2 := takeMin_length h2
    have := ih (h.merge (by omega) h1 h2) (by simp; omega) (by simp; omega)
    rw [he]
    simpa using this

/-- The loop starts on the leaves (R111). -/
theorem leaves_forest {freq : List Freq} (h : freq.length = 257) : Forest (leaves freq) (liveFrom 0 freq) := by
  have hl : (leaves freq).length = 257 := by simp [leaves, h]
  refine ⟨by omega, ?_, fun n hn hn' => by omega⟩
  rw [hl, liveFrom_indices, h, childrenBelow, List.drop_eq_nil_of_le (by simp)]
  simp [List.range_eq_range']

theorem leaves_freqOk {freq : List Freq} (hs : (freq.map BitVec.toNat).sum < 2^32) :
    FreqOk (leaves freq) (liveFrom 0 freq) := by
  have key : ∀ (i : Nat) (fs : List Freq), (liveFrom i fs).map LiveNode.f = fs.map BitVec.toNat := by
    intro i fs
    induction fs generalizing i with
    | nil => rfl
    | cons f fs ih => simp [liveFrom, ih]
  have key2 : ∀ (i : Nat) (fs : List Freq) (x : LiveNode), x ∈ liveFrom i fs → i ≤ x.n ∧ ∃ f, fs[x.n - i]? = some f ∧ x.f = f.toNat := by
    intro i fs
    induction fs generalizing i with
    | nil => simp [liveFrom]
    | cons f fs ih =>
      intro x hx
      simp only [liveFrom, List.mem_cons] at hx
      rcases hx with rfl | hx
      · simp
      · obtain ⟨h1, g, h2, h3⟩ := ih (i+1) x hx
        refine ⟨by omega, g, ?_, h3⟩
        rw [show x.n - i = (x.n - (i+1)) + 1 by omega]
        simpa using h2
  refine ⟨fun x hx => ?_, by rw [key]; exact hs⟩
  obtain ⟨-, f, h1, h2⟩ := key2 0 freq x hx
  exact ⟨leafNode f, by simp [leaves] at h1 ⊢; exact ⟨f, h1, rfl⟩, by simp [leafNode, h2]⟩

theorem builtNode_forest {freq : List Freq} (h : freq.length = Config.nsym) :
    ∃ live', live'.length = 1 ∧ Forest (builtNode freq) live' := by
  have := mergeLoop_forest 256 (leaves_forest h) (by simp [h]; rfl) (by simp [leaves, h]; rfl)
  have hl : (leaves freq).length = 257 := by simp [leaves]; exact h
  rw [hl] at this
  exact this

/-- Every index but 512 is a child exactly once. -/
theorem builtNode_perm {freq : List Freq} (h : freq.length = Config.nsym) :
    (childrenBelow (builtNode freq) 513 ++ [512]).Perm (List.range 513) := by
  obtain ⟨l, h1, hF⟩ := builtNode_forest h
  have hl : (builtNode freq).length = 513 := builtNode_length h
  have hp := hF.perm
  rw [hl] at hp
  obtain ⟨x, rfl⟩ := List.length_eq_one_iff.mp h1
  have h512 : 512 ∉ childrenBelow (builtNode freq) 513 := by
    intro hc
    unfold childrenBelow at hc
    rw [List.mem_flatMap] at hc
    obtain ⟨nd, hnd, hc⟩ := hc
    obtain ⟨j, hj, e⟩ := List.mem_iff_getElem.mp hnd
    have hj' : j + 257 < 513 := by simp at hj; omega
    obtain ⟨nd', e', c0, c1⟩ := hF.older (257 + j) (by omega) (by omega)
    have : nd' = nd := by
      rw [← e]
      simp only [List.getElem_drop, List.getElem_take]
      have := List.getElem?_eq_some_iff.mp e'
      exact this.2.symm
    subst this
    simp at hc
    omega
  have : x.n = 512 := by
    have h5 : 512 ∈ List.range 513 := by simp
    have := hp.mem_iff.mpr h5
    simp at this
    rcases this with h | h
    · exact absurd h h512
    · omega
  simpa [this] using hp

end Sys2Proof.Machine
end

