-- ==== Sys2Proof/Laws/Paths.lean ====
section
/-! SUPPORT. Paths in the arena and the code they make (R116): bit lists and their values, what `ASSIGN` writes, and that a
built code table holds the path from the root to each leaf. -/

namespace Sys2Proof.Machine

/-- A finished arena: leaves below 257, older children above, every index but 512 a child once. -/
structure Arena (node : List Node) : Prop where
  length : node.length = 513
  leaf : ∀ i, i ≤ 256 → ∃ f, node[i]? = some (leafNode f)
  older : ∀ n, 257 ≤ n → n ≤ 512 → ∃ nd, node[n]? = some nd ∧ nd.c0.toNat < n ∧ nd.c1.toNat < n
  perm : (childrenBelow node 513 ++ [512]).Perm (List.range 513)

theorem builtNode_arena {freq : List Freq} (h : freq.length = Config.nsym) : Arena (builtNode freq) where
  length := builtNode_length h
  leaf i hi := by
    have hl : i < (leaves freq).length := by simp [leaves, h, Config.nsym]; omega
    have hi' : i < freq.length := by rw [h]; unfold Config.nsym; omega
    refine ⟨freq[i], ?_⟩
    rw [builtNode, List.getElem?_append_left hl]
    simp [leaves, hi']
  older n h1 h2 := by
    obtain ⟨l, -, hF⟩ := builtNode_forest h
    exact hF.older n h1 (by rw [builtNode_length h]; unfold Config.nnode; omega)
  perm := builtNode_perm h

theorem toNat_inj {a b : NodeIdx} (h : a.toNat = b.toNat) : a = b := BitVec.eq_of_toNat_eq h

/-- An internal node has both children, older than itself. -/
theorem Arena.child {node} (hA : Arena node) {n : NodeIdx} (h1 : 256 < n.toNat) (h2 : n.toNat ≤ 512) :
    ∃ nd, node[n.toNat]? = some nd ∧ ∀ b, (branch b nd).toNat < n.toNat ∧ branch b nd ≠ Config.null := by
  obtain ⟨nd, e, c0, c1⟩ := hA.older n.toNat h1 h2
  refine ⟨nd, e, fun b => ?_⟩
  have hlt : (branch b nd).toNat < n.toNat := by cases b <;> simpa [branch]
  refine ⟨hlt, fun hb => ?_⟩
  rw [hb] at hlt
  have : Config.null.toNat = 1023 := rfl
  omega

/-- No branch leads on from a leaf. -/
theorem Arena.follow_leaf {node} (hA : Arena node) {n : NodeIdx} (h : n.toNat ≤ 256) (bs : List Bool) :
    follow node bs n = if bs = [] then some n else none := by
  cases bs with
  | nil => rfl
  | cons b bs =>
    obtain ⟨f, e⟩ := hA.leaf n.toNat h
    rw [follow, e]
    cases b <;> simp [branch, leafNode]

theorem follow_append (node : List Node) (p q : List Bool) (n : NodeIdx) :
    follow node (p ++ q) n = (follow node p n).bind (follow node q) := by
  induction p generalizing n with
  | nil => rfl
  | cons b p ih =>
    simp only [List.cons_append, follow]
    cases node[n.toNat]? with
    | none => rfl
    | some nd =>
      dsimp only
      split
      · rfl
      · exact ih _

/-- The `CODE` entry of a path (R116, R84). -/
def entryOf (p : List Bool) : CodeEntry := ⟨BitVec.ofNat 32 (bitsValue p), BitVec.ofNat 6 p.length⟩

theorem bitsValue_lt (p : List Bool) : bitsValue p < 2 ^ p.length := by
  induction p with
  | nil => simp [bitsValue]
  | cons b p ih => cases b <;> simp [bitsValue, Nat.pow_succ] <;> omega

theorem bitsValue_append (p q : List Bool) : bitsValue (p ++ q) = bitsValue p + 2 ^ p.length * bitsValue q := by
  induction p with
  | nil => simp [bitsValue]
  | cons b p ih => simp [bitsValue, ih, Nat.pow_succ]; ring

theorem testBit_bitsValue (p : List Bool) (i : Nat) : (bitsValue p).testBit i = p.getD i false := by
  induction p generalizing i with
  | nil => simp [bitsValue]
  | cons b p ih =>
    cases i with
    | zero => cases b <;> simp [bitsValue, Nat.testBit_zero]
    | succ i =>
      rw [Nat.testBit_succ]
      have : bitsValue (b :: p) / 2 = bitsValue p := by cases b <;> (simp [bitsValue]; try omega)
      rw [this, ih]; simp

theorem bitsLsb_bitsValue (p : List Bool) : bitsLsb p.length (bitsValue p) = p := by
  apply List.ext_getElem?
  intro i
  by_cases hi : i < p.length
  · simp [bitsLsb, hi, testBit_bitsValue]
  · simp [bitsLsb, hi]

/-- The code word of a path's entry is the path. -/
theorem entryOf_stream {p : List Bool} (h : p.length ≤ 32) : CodeEntry.stream (entryOf p) = p := by
  unfold CodeEntry.stream entryOf
  have h1 := bitsValue_lt p
  have h2 : (2:Nat) ^ p.length ≤ 2 ^ 32 := Nat.pow_le_pow_right (by omega) h
  rw [BitVec.toNat_ofNat, BitVec.toNat_ofNat, Nat.mod_eq_of_lt (by omega), Nat.mod_eq_of_lt (by omega), bitsLsb_bitsValue]

/-- Going one branch deeper sets the next bit, or leaves it 0 (R116). -/
theorem or_shift_bit {p : List Bool} (_h : p.length < 32) (b : Bool) :
    (if b then BitVec.ofNat 32 (bitsValue p) ||| (1#32 <<< p.length) else BitVec.ofNat 32 (bitsValue p)) = BitVec.ofNat 32 (bitsValue (p ++ [b])) := by
  apply BitVec.eq_of_getLsbD_eq
  intro i hi
  cases b
  · simp only [Bool.false_eq_true, ↓reduceIte, BitVec.getLsbD_ofNat, hi, decide_true, Bool.true_and, testBit_bitsValue]
    by_cases hip : i < p.length
    · simp [List.getD_eq_getElem?_getD, List.getElem?_append_left hip]
    · rw [List.getD_eq_default _ _ (by omega)]
      rcases Nat.lt_or_ge p.length i with h' | h'
      · rw [List.getD_eq_default _ _ (by simp; omega)]
      · have : i = p.length := by omega
        subst this; simp
  · simp only [↓reduceIte, BitVec.getLsbD_or, BitVec.getLsbD_ofNat, hi, decide_true, Bool.true_and, testBit_bitsValue, BitVec.getLsbD_shiftLeft]
    by_cases hip : i < p.length
    · simp [List.getD_eq_getElem?_getD, List.getElem?_append_left hip, hip]
    · rw [List.getD_eq_default _ _ (by omega)]
      rcases Nat.lt_or_ge p.length i with h' | h'
      · rw [List.getD_eq_default _ _ (by simp; omega)]
        have : i - p.length ≠ 0 := by omega
        have h1 : Nat.testBit 1 (i - p.length) = false := by
          obtain ⟨j, hj⟩ : ∃ j, i - p.length = j + 1 := ⟨i - p.length - 1, by omega⟩
          rw [hj, Nat.testBit_succ]; simp
        simp [show ¬ i < p.length by omega, h1]
      · have : i = p.length := by omega
        subst this; simp

/-- What `ASSIGN` does from node `n`, reached by `pre`: the leaves under `n` get their paths, the others keep their entry. -/
theorem assign_spec {node} (hA : Arena node) {room : Nat} {n : NodeIdx} {pre : List Bool} {code code' : List CodeEntry}
    (hn : n.toNat ≤ 512) (hr : room + pre.length = 32) (hc : code.length = 257)
    (h : assign node room n (BitVec.ofNat 32 (bitsValue pre)) pre.length code = some code') :
    ∀ (s : NodeIdx), s.toNat ≤ 256 →
      ((∃ p, follow node p n = some s) → ∃ p, follow node p n = some s ∧ p.length ≤ room ∧ code'[s.toNat]? = some (entryOf (pre ++ p))) ∧
      ((¬ ∃ p, follow node p n = some s) → code'[s.toNat]? = code[s.toNat]?) := by
  induction room generalizing n pre code code' with
  | zero =>
    by_cases hl : n.toNat ≤ 256
    · rw [assign_leaf hl] at h
      cases h
      intro s hs
      refine ⟨?_, ?_⟩
      · rintro ⟨p, hp⟩
        rw [hA.follow_leaf hl] at hp
        split at hp <;> cases hp
        refine ⟨[], rfl, by simp, ?_⟩
        rw [writeCode, List.getElem?_set_self (by omega)]; simp [entryOf]
      · intro hne
        have : n.toNat ≠ s.toNat := fun e => hne ⟨[], by rw [toNat_inj e]; rfl⟩
        simp [writeCode, List.getElem?_set_ne this]
    · obtain ⟨r, -, -, hr, -⟩ := (assign_internal (by omega)).mp h
      omega
  | succ room ih =>
    by_cases hl : n.toNat ≤ 256
    · rw [assign_leaf hl] at h
      cases h
      intro s hs
      refine ⟨?_, ?_⟩
      · rintro ⟨p, hp⟩
        rw [hA.follow_leaf hl] at hp
        split at hp <;> cases hp
        refine ⟨[], rfl, by simp, ?_⟩
        rw [writeCode, List.getElem?_set_self (by omega)]; simp [entryOf]
      · intro hne
        have : n.toNat ≠ s.toNat := fun e => hne ⟨[], by rw [toNat_inj e]; rfl⟩
        simp [writeCode, List.getElem?_set_ne this]
    · obtain ⟨r, nd, c1, hr', hnd, h1, h2⟩ := (assign_internal (by omega)).mp h
      cases hr'
      obtain ⟨nd', hnd', hch⟩ := hA.child (n := n) (by omega) hn
      rw [hnd] at hnd'
      cases hnd'
      have e0 := or_shift_bit (p := pre) (by omega) false
      have e1 := or_shift_bit (p := pre) (by omega) true
      simp only [Bool.false_eq_true, ↓reduceIte] at e0 e1
      rw [e1] at h2
      rw [e0] at h1
      have l1 : (pre ++ [false]).length = pre.length + 1 := by simp
      have l2 : (pre ++ [true]).length = pre.length + 1 := by simp
      rw [← l1] at h1
      rw [← l2] at h2
      have hb0 := hch false
      have hb1 := hch true
      simp only [branch, Bool.false_eq_true, ↓reduceIte] at hb0 hb1
      have i1 := ih (n := nd.c0) (by omega) (by simp; omega) hc h1
      have i2 := ih (n := nd.c1) (by omega) (by simp; omega) (by rw [assign_length h1, hc]) h2
      have fcons : ∀ (b : Bool) (p : List Bool), follow node (b :: p) n = follow node p (if b then nd.c1 else nd.c0) := by
        intro b p
        rw [follow, hnd]
        dsimp only
        rw [if_neg (hch b).2]; rfl
      have f0 : ∀ p, follow node (false :: p) n = follow node p nd.c0 := fun p => fcons false p
      have f1 : ∀ p, follow node (true :: p) n = follow node p nd.c1 := fun p => fcons true p
      intro s hs
      refine ⟨?_, ?_⟩
      · rintro ⟨p, hp⟩
        by_cases hr1 : ∃ p, follow node p nd.c1 = some s
        · obtain ⟨q, hq, hql, hqc⟩ := (i2 s hs).1 hr1
          exact ⟨true :: q, by rw [f1, hq], by simp; omega, by rw [hqc]; simp⟩
        · have hr0 : ∃ p, follow node p nd.c0 = some s := by
            cases p with
            | nil =>
              cases hp
              omega
            | cons b p =>
              cases b
              · exact ⟨p, by rw [← f0, hp]⟩
              · exact absurd ⟨p, by rw [← f1, hp]⟩ hr1
          obtain ⟨q, hq, hql, hqc⟩ := (i1 s hs).1 hr0
          refine ⟨false :: q, by rw [f0, hq], by simp; omega, ?_⟩
          rw [(i2 s hs).2 hr1, hqc]
          simp
      · intro hne
        rw [(i2 s hs).2 (fun ⟨p, hp⟩ => hne ⟨true :: p, by rw [f1, hp]⟩),
          (i1 s hs).2 (fun ⟨p, hp⟩ => hne ⟨false :: p, by rw [f0, hp]⟩)]

/-- Every node is reached from 512. -/
theorem Arena.reach {node} (hA : Arena node) (k : Nat) (i : Nat) (hi : i + k = 512) :
    ∃ p, follow node p 512#10 = some (BitVec.ofNat 10 i) := by
  induction k using Nat.strong_induction_on generalizing i with
  | _ k ih =>
    rcases Nat.eq_zero_or_pos k with rfl | hk
    · exact ⟨[], by simp [follow]; exact (by rw [show i = 512 by omega])⟩
    · have hc : i ∈ childrenBelow node 513 := by
        have : i ∈ childrenBelow node 513 ++ [512] := hA.perm.mem_iff.mpr (by simp; omega)
        simp at this
        rcases this with h | h
        · exact h
        · omega
      unfold childrenBelow at hc
      rw [List.mem_flatMap] at hc
      obtain ⟨nd, hnd, hc⟩ := hc
      obtain ⟨j, hj, e⟩ := List.mem_iff_getElem.mp hnd
      have hj' : j + 257 < 513 := by simp at hj; omega
      obtain ⟨nd', e', c0, c1⟩ := hA.older (257 + j) (by omega) (by omega)
      have : nd' = nd := by
        rw [← e]
        simp only [List.getElem_drop, List.getElem_take]
        have := List.getElem?_eq_some_iff.mp e'
        exact this.2.symm
      subst this
      obtain ⟨p, hp⟩ := ih (512 - (257 + j)) (by simp at hc; omega) (257 + j) (by omega)
      have hm : (BitVec.ofNat 10 (257 + j)).toNat = 257 + j := toNat_ofNat10 (by omega)
      have hstep : ∀ b, (branch b nd').toNat = i → follow node (p ++ [b]) 512#10 = some (BitVec.ofNat 10 i) := by
        intro b hb
        rw [follow_append, hp]
        simp only [Option.bind_some, follow, hm, e']
        rw [if_neg]
        · congr 1
          apply toNat_inj
          rw [hb, toNat_ofNat10 (by omega)]
        · intro hn
          rw [hn] at hb
          have : Config.null.toNat = 1023 := rfl
          omega
      simp only [List.mem_cons, List.not_mem_nil, or_false] at hc
      rcases hc with h | h
      · exact ⟨p ++ [false], hstep false h.symm⟩
      · exact ⟨p ++ [true], hstep true h.symm⟩

/-- Tables whose code is the paths of their tree. -/
structure CodeOk (node : List Node) (code : List CodeEntry) : Prop where
  arena : Arena node
  path : ∀ s, s ≤ 256 → ∃ p, follow node p 512#10 = some (BitVec.ofNat 10 s) ∧ 1 ≤ p.length ∧ p.length ≤ 32 ∧ code[s]? = some (entryOf p)

theorem codeOk_of_build {freq : List Freq} {t : Tables} (h : freq.length = Config.nsym) (ht : buildTables freq = some t) :
    CodeOk t.node t.code := by
  obtain ⟨-, h1, -, h2⟩ := (buildTables_eq_some h).mp ht
  have hA := builtNode_arena h
  rw [h1]
  refine ⟨hA, fun s hs => ?_⟩
  have := assign_spec hA (room := 32) (n := 512#10) (pre := []) (by decide) rfl (by simp; rfl) h2
    (BitVec.ofNat 10 s) (by rw [toNat_ofNat10 (by omega)]; exact hs)
  obtain ⟨p, hp, hl, hc⟩ := this.1 (hA.reach (512 - s) s (by omega))
  rw [toNat_ofNat10 (by omega)] at hc
  refine ⟨p, hp, ?_, hl, hc⟩
  cases p with
  | nil =>
    simp [follow] at hp
    have := congrArg BitVec.toNat hp
    rw [toNat_ofNat10 (by omega)] at this
    simp at this
    omega
  | cons b p => simp

theorem CodeOk.stream {node code} (h : CodeOk node code) {s : Nat} (hs : s ≤ 256) :
    follow node (codeOf code s) 512#10 = some (BitVec.ofNat 10 s) ∧ 1 ≤ (codeOf code s).length ∧ (codeOf code s).length ≤ 32 := by
  obtain ⟨p, hp, h1, h2, hc⟩ := h.path s hs
  unfold codeOf
  rw [hc]
  dsimp only
  rw [entryOf_stream h2]
  exact ⟨hp, h1, h2⟩

end Sys2Proof.Machine
end

