-- ==== Sys2Proof/Laws/PerInstr.lean ====
section
/-! SUPPORT. The family `Encoding`: every instruction has a row of its own in the encoding tables, and the row is well formed
(R80, R93, R84). One lemma per constructor. -/

namespace Sys2Proof.Laws.Encoding

/-- The instruction has a row of its own, and the row is well formed. -/
def Statement (i : Instr) : Prop := i.wf = true

theorem init : Statement .init := rfl
theorem compress : Statement .compress := rfl
theorem decompress : Statement .decompress := rfl
theorem sym000 : Statement .sym000 := rfl
theorem sym001 : Statement .sym001 := rfl
theorem sym002 : Statement .sym002 := rfl
theorem sym003 : Statement .sym003 := rfl
theorem sym004 : Statement .sym004 := rfl
theorem sym005 : Statement .sym005 := rfl
theorem sym006 : Statement .sym006 := rfl
theorem sym007 : Statement .sym007 := rfl
theorem sym008 : Statement .sym008 := rfl
theorem sym009 : Statement .sym009 := rfl
theorem sym010 : Statement .sym010 := rfl
theorem sym011 : Statement .sym011 := rfl
theorem sym012 : Statement .sym012 := rfl
theorem sym013 : Statement .sym013 := rfl
theorem sym014 : Statement .sym014 := rfl
theorem sym015 : Statement .sym015 := rfl
theorem sym016 : Statement .sym016 := rfl
theorem sym017 : Statement .sym017 := rfl
theorem sym018 : Statement .sym018 := rfl
theorem sym019 : Statement .sym019 := rfl
theorem sym020 : Statement .sym020 := rfl
theorem sym021 : Statement .sym021 := rfl
theorem sym022 : Statement .sym022 := rfl
theorem sym023 : Statement .sym023 := rfl
theorem sym024 : Statement .sym024 := rfl
theorem sym025 : Statement .sym025 := rfl
theorem sym026 : Statement .sym026 := rfl
theorem sym027 : Statement .sym027 := rfl
theorem sym028 : Statement .sym028 := rfl
theorem sym029 : Statement .sym029 := rfl
theorem sym030 : Statement .sym030 := rfl
theorem sym031 : Statement .sym031 := rfl
theorem sym032 : Statement .sym032 := rfl
theorem sym033 : Statement .sym033 := rfl
theorem sym034 : Statement .sym034 := rfl
theorem sym035 : Statement .sym035 := rfl
theorem sym036 : Statement .sym036 := rfl
theorem sym037 : Statement .sym037 := rfl
theorem sym038 : Statement .sym038 := rfl
theorem sym039 : Statement .sym039 := rfl
theorem sym040 : Statement .sym040 := rfl
theorem sym041 : Statement .sym041 := rfl
theorem sym042 : Statement .sym042 := rfl
theorem sym043 : Statement .sym043 := rfl
theorem sym044 : Statement .sym044 := rfl
theorem sym045 : Statement .sym045 := rfl
theorem sym046 : Statement .sym046 := rfl
theorem sym047 : Statement .sym047 := rfl
theorem sym048 : Statement .sym048 := rfl
theorem sym049 : Statement .sym049 := rfl
theorem sym050 : Statement .sym050 := rfl
theorem sym051 : Statement .sym051 := rfl
theorem sym052 : Statement .sym052 := rfl
theorem sym053 : Statement .sym053 := rfl
theorem sym054 : Statement .sym054 := rfl
theorem sym055 : Statement .sym055 := rfl
theorem sym056 : Statement .sym056 := rfl
theorem sym057 : Statement .sym057 := rfl
theorem sym058 : Statement .sym058 := rfl
theorem sym059 : Statement .sym059 := rfl
theorem sym060 : Statement .sym060 := rfl
theorem sym061 : Statement .sym061 := rfl
theorem sym062 : Statement .sym062 := rfl
theorem sym063 : Statement .sym063 := rfl
theorem sym064 : Statement .sym064 := rfl
theorem sym065 : Statement .sym065 := rfl
theorem sym066 : Statement .sym066 := rfl
theorem sym067 : Statement .sym067 := rfl
theorem sym068 : Statement .sym068 := rfl
theorem sym069 : Statement .sym069 := rfl
theorem sym070 : Statement .sym070 := rfl
theorem sym071 : Statement .sym071 := rfl
theorem sym072 : Statement .sym072 := rfl
theorem sym073 : Statement .sym073 := rfl
theorem sym074 : Statement .sym074 := rfl
theorem sym075 : Statement .sym075 := rfl
theorem sym076 : Statement .sym076 := rfl
theorem sym077 : Statement .sym077 := rfl
theorem sym078 : Statement .sym078 := rfl
theorem sym079 : Statement .sym079 := rfl
theorem sym080 : Statement .sym080 := rfl
theorem sym081 : Statement .sym081 := rfl
theorem sym082 : Statement .sym082 := rfl
theorem sym083 : Statement .sym083 := rfl
theorem sym084 : Statement .sym084 := rfl
theorem sym085 : Statement .sym085 := rfl
theorem sym086 : Statement .sym086 := rfl
theorem sym087 : Statement .sym087 := rfl
theorem sym088 : Statement .sym088 := rfl
theorem sym089 : Statement .sym089 := rfl
theorem sym090 : Statement .sym090 := rfl
theorem sym091 : Statement .sym091 := rfl
theorem sym092 : Statement .sym092 := rfl
theorem sym093 : Statement .sym093 := rfl
theorem sym094 : Statement .sym094 := rfl
theorem sym095 : Statement .sym095 := rfl
theorem sym096 : Statement .sym096 := rfl
theorem sym097 : Statement .sym097 := rfl
theorem sym098 : Statement .sym098 := rfl
theorem sym099 : Statement .sym099 := rfl
theorem sym100 : Statement .sym100 := rfl
theorem sym101 : Statement .sym101 := rfl
theorem sym102 : Statement .sym102 := rfl
theorem sym103 : Statement .sym103 := rfl
theorem sym104 : Statement .sym104 := rfl
theorem sym105 : Statement .sym105 := rfl
theorem sym106 : Statement .sym106 := rfl
theorem sym107 : Statement .sym107 := rfl
theorem sym108 : Statement .sym108 := rfl
theorem sym109 : Statement .sym109 := rfl
theorem sym110 : Statement .sym110 := rfl
theorem sym111 : Statement .sym111 := rfl
theorem sym112 : Statement .sym112 := rfl
theorem sym113 : Statement .sym113 := rfl
theorem sym114 : Statement .sym114 := rfl
theorem sym115 : Statement .sym115 := rfl
theorem sym116 : Statement .sym116 := rfl
theorem sym117 : Statement .sym117 := rfl
theorem sym118 : Statement .sym118 := rfl
theorem sym119 : Statement .sym119 := rfl
theorem sym120 : Statement .sym120 := rfl
theorem sym121 : Statement .sym121 := rfl
theorem sym122 : Statement .sym122 := rfl
theorem sym123 : Statement .sym123 := rfl
theorem sym124 : Statement .sym124 := rfl
theorem sym125 : Statement .sym125 := rfl
theorem sym126 : Statement .sym126 := rfl
theorem sym127 : Statement .sym127 := rfl
theorem sym128 : Statement .sym128 := rfl
theorem sym129 : Statement .sym129 := rfl
theorem sym130 : Statement .sym130 := rfl
theorem sym131 : Statement .sym131 := rfl
theorem sym132 : Statement .sym132 := rfl
theorem sym133 : Statement .sym133 := rfl
theorem sym134 : Statement .sym134 := rfl
theorem sym135 : Statement .sym135 := rfl
theorem sym136 : Statement .sym136 := rfl
theorem sym137 : Statement .sym137 := rfl
theorem sym138 : Statement .sym138 := rfl
theorem sym139 : Statement .sym139 := rfl
theorem sym140 : Statement .sym140 := rfl
theorem sym141 : Statement .sym141 := rfl
theorem sym142 : Statement .sym142 := rfl
theorem sym143 : Statement .sym143 := rfl
theorem sym144 : Statement .sym144 := rfl
theorem sym145 : Statement .sym145 := rfl
theorem sym146 : Statement .sym146 := rfl
theorem sym147 : Statement .sym147 := rfl
theorem sym148 : Statement .sym148 := rfl
theorem sym149 : Statement .sym149 := rfl
theorem sym150 : Statement .sym150 := rfl
theorem sym151 : Statement .sym151 := rfl
theorem sym152 : Statement .sym152 := rfl
theorem sym153 : Statement .sym153 := rfl
theorem sym154 : Statement .sym154 := rfl
theorem sym155 : Statement .sym155 := rfl
theorem sym156 : Statement .sym156 := rfl
theorem sym157 : Statement .sym157 := rfl
theorem sym158 : Statement .sym158 := rfl
theorem sym159 : Statement .sym159 := rfl
theorem sym160 : Statement .sym160 := rfl
theorem sym161 : Statement .sym161 := rfl
theorem sym162 : Statement .sym162 := rfl
theorem sym163 : Statement .sym163 := rfl
theorem sym164 : Statement .sym164 := rfl
theorem sym165 : Statement .sym165 := rfl
theorem sym166 : Statement .sym166 := rfl
theorem sym167 : Statement .sym167 := rfl
theorem sym168 : Statement .sym168 := rfl
theorem sym169 : Statement .sym169 := rfl
theorem sym170 : Statement .sym170 := rfl
theorem sym171 : Statement .sym171 := rfl
theorem sym172 : Statement .sym172 := rfl
theorem sym173 : Statement .sym173 := rfl
theorem sym174 : Statement .sym174 := rfl
theorem sym175 : Statement .sym175 := rfl
theorem sym176 : Statement .sym176 := rfl
theorem sym177 : Statement .sym177 := rfl
theorem sym178 : Statement .sym178 := rfl
theorem sym179 : Statement .sym179 := rfl
theorem sym180 : Statement .sym180 := rfl
theorem sym181 : Statement .sym181 := rfl
theorem sym182 : Statement .sym182 := rfl
theorem sym183 : Statement .sym183 := rfl
theorem sym184 : Statement .sym184 := rfl
theorem sym185 : Statement .sym185 := rfl
theorem sym186 : Statement .sym186 := rfl
theorem sym187 : Statement .sym187 := rfl
theorem sym188 : Statement .sym188 := rfl
theorem sym189 : Statement .sym189 := rfl
theorem sym190 : Statement .sym190 := rfl
theorem sym191 : Statement .sym191 := rfl
theorem sym192 : Statement .sym192 := rfl
theorem sym193 : Statement .sym193 := rfl
theorem sym194 : Statement .sym194 := rfl
theorem sym195 : Statement .sym195 := rfl
theorem sym196 : Statement .sym196 := rfl
theorem sym197 : Statement .sym197 := rfl
theorem sym198 : Statement .sym198 := rfl
theorem sym199 : Statement .sym199 := rfl
theorem sym200 : Statement .sym200 := rfl
theorem sym201 : Statement .sym201 := rfl
theorem sym202 : Statement .sym202 := rfl
theorem sym203 : Statement .sym203 := rfl
theorem sym204 : Statement .sym204 := rfl
theorem sym205 : Statement .sym205 := rfl
theorem sym206 : Statement .sym206 := rfl
theorem sym207 : Statement .sym207 := rfl
theorem sym208 : Statement .sym208 := rfl
theorem sym209 : Statement .sym209 := rfl
theorem sym210 : Statement .sym210 := rfl
theorem sym211 : Statement .sym211 := rfl
theorem sym212 : Statement .sym212 := rfl
theorem sym213 : Statement .sym213 := rfl
theorem sym214 : Statement .sym214 := rfl
theorem sym215 : Statement .sym215 := rfl
theorem sym216 : Statement .sym216 := rfl
theorem sym217 : Statement .sym217 := rfl
theorem sym218 : Statement .sym218 := rfl
theorem sym219 : Statement .sym219 := rfl
theorem sym220 : Statement .sym220 := rfl
theorem sym221 : Statement .sym221 := rfl
theorem sym222 : Statement .sym222 := rfl
theorem sym223 : Statement .sym223 := rfl
theorem sym224 : Statement .sym224 := rfl
theorem sym225 : Statement .sym225 := rfl
theorem sym226 : Statement .sym226 := rfl
theorem sym227 : Statement .sym227 := rfl
theorem sym228 : Statement .sym228 := rfl
theorem sym229 : Statement .sym229 := rfl
theorem sym230 : Statement .sym230 := rfl
theorem sym231 : Statement .sym231 := rfl
theorem sym232 : Statement .sym232 := rfl
theorem sym233 : Statement .sym233 := rfl
theorem sym234 : Statement .sym234 := rfl
theorem sym235 : Statement .sym235 := rfl
theorem sym236 : Statement .sym236 := rfl
theorem sym237 : Statement .sym237 := rfl
theorem sym238 : Statement .sym238 := rfl
theorem sym239 : Statement .sym239 := rfl
theorem sym240 : Statement .sym240 := rfl
theorem sym241 : Statement .sym241 := rfl
theorem sym242 : Statement .sym242 := rfl
theorem sym243 : Statement .sym243 := rfl
theorem sym244 : Statement .sym244 := rfl
theorem sym245 : Statement .sym245 := rfl
theorem sym246 : Statement .sym246 := rfl
theorem sym247 : Statement .sym247 := rfl
theorem sym248 : Statement .sym248 := rfl
theorem sym249 : Statement .sym249 := rfl
theorem sym250 : Statement .sym250 := rfl
theorem sym251 : Statement .sym251 := rfl
theorem sym252 : Statement .sym252 := rfl
theorem sym253 : Statement .sym253 := rfl
theorem sym254 : Statement .sym254 := rfl
theorem sym255 : Statement .sym255 := rfl
theorem symEos : Statement .symEos := rfl

end Sys2Proof.Laws.Encoding
end

