-- ==== Sys2Proof/Laws/Walk.lean ====
section
/-! SUPPORT. The walk of the decoder over built tables (R95, R163, R164): one bit, the bits of a code word, the code words of a
byte list. -/

namespace Sys2Proof.Machine

/-- The tables of a state are those of a tree and its paths. -/
structure Tree (s : State) : Prop where
  code : CodeOk s.node s.code
  root : s.root = 512

theorem Tree.of_inv {s : State} (h : s.Inv) (hr : s.ready = true) : Tree s := by
  obtain ⟨h1, h2⟩ := h.built hr
  obtain ⟨-, -, h3, -⟩ := (buildTables_eq_some h1).mp h2
  exact ⟨codeOk_of_build h1 h2, h3⟩

/-- `K <- K + n`: `n` bits have been taken (R162). -/
def State.countBits (n : Nat) (s : State) : State := { s with k := s.k + n }

theorem countBits_zero (s : State) : s.countBits 0 = s := rfl
theorem countBits_succ (n : Nat) (s : State) : s.countBits (n + 1) = s.countBit.countBits n := by
  unfold State.countBits State.countBit
  congr 1
  dsimp only
  omega

/-- What a leaf does: EOS ends the command, a byte leaf appends its byte and restarts from the root (R164). -/
def arrive (l : NodeIdx) (s : State) : Walk :=
  if l = Config.eos then .ended (.next (succeed (releaseDecoder s))) else byteLeaf l s

theorem arrive_moveTo (l n : NodeIdx) (s : State) : arrive l (s.moveTo n) = arrive l s := by
  unfold arrive
  split
  · rfl
  · rw [byteLeaf_eq, byteLeaf_eq]; rfl

theorem countBits_moveTo (n : NodeIdx) (k : Nat) (s : State) : (s.moveTo n).countBits k = (s.countBits k).moveTo n := rfl

/-- One bit on an internal node: the child is there, older than its parent, and no `CorruptStream` is raised (R95, R163). -/
theorem decodeBit_internal {s : State} (hT : Tree s) (h1 : 256 < s.cur.toNat) (h2 : s.cur.toNat ≤ 512) (b : Bool) :
    ∃ nd, s.node[s.cur.toNat]? = some nd ∧ (branch b nd).toNat < s.cur.toNat ∧ branch b nd ≠ Config.null ∧
      decodeBit b s = if (branch b nd).toNat ≤ 256 then arrive (branch b nd) s.countBit
        else .going (s.countBit.moveTo (branch b nd)) := by
  obtain ⟨nd, e, hc⟩ := hT.code.arena.child h1 h2
  refine ⟨nd, e, (hc b).1, (hc b).2, ?_⟩
  unfold decodeBit State.nodeAt arrive
  rw [e]
  dsimp only
  rw [if_neg (hc b).2]
  split
  · rename_i h
    rw [h, if_pos (by decide)]
  · rfl

/-- The bits of a path from an internal node to a leaf arrive at that leaf. -/
theorem decodeBits_path {s : State} (hT : Tree s) (h1 : 256 < s.cur.toNat) (h2 : s.cur.toNat ≤ 512) {p : List Bool} {l : NodeIdx}
    (hl : l.toNat ≤ 256) (hp : follow s.node p s.cur = some l) : decodeBits p s = arrive l (s.countBits p.length) := by
  induction p generalizing s with
  | nil => cases hp; omega
  | cons b p ih =>
    obtain ⟨nd, e, hlt, hnn, hd⟩ := decodeBit_internal hT h1 h2 b
    rw [follow, e] at hp
    dsimp only at hp
    rw [if_neg hnn] at hp
    rw [decodeBits, hd, List.length_cons, countBits_succ]
    by_cases hb : (branch b nd).toNat ≤ 256
    · rw [hT.code.arena.follow_leaf hb] at hp
      split at hp
      · rename_i hpn
        cases hp
        subst hpn
        rw [if_pos hb, List.length_nil, countBits_zero]
        cases arrive (branch b nd) s.countBit <;> rfl
      · cases hp
    · rw [if_neg hb]
      dsimp only
      rw [ih (s := s.countBit.moveTo (branch b nd)) ⟨hT.code, hT.root⟩ (by simpa using hb) (by simp; omega) hp,
        countBits_moveTo, arrive_moveTo]

/-- Bits that do not lead to a leaf leave the walk on the node they lead to. -/
theorem decodeBits_inner {s : State} (hT : Tree s) (h1 : 256 < s.cur.toNat) (h2 : s.cur.toNat ≤ 512) {p : List Bool}
    {n : NodeIdx} (hn : 256 < n.toNat) (hp : follow s.node p s.cur = some n) :
    decodeBits p s = .going ((s.countBits p.length).moveTo n) := by
  induction p generalizing s with
  | nil => cases hp; rfl
  | cons b p ih =>
    obtain ⟨nd, e, hlt, hnn, hd⟩ := decodeBit_internal hT h1 h2 b
    rw [follow, e] at hp
    dsimp only at hp
    rw [if_neg hnn] at hp
    rw [decodeBits, hd, List.length_cons, countBits_succ]
    by_cases hb : (branch b nd).toNat ≤ 256
    · rw [hT.code.arena.follow_leaf hb] at hp
      split at hp
      · cases hp; omega
      · cases hp
    · rw [if_neg hb]
      dsimp only
      rw [ih (s := s.countBit.moveTo (branch b nd)) ⟨hT.code, hT.root⟩ (by simpa using hb) (by simp; omega) hp]
      rfl

/-- `bs` appended to `OUT` after `k` bits, with the walk at the root again. -/
def State.spelled (bs : List Byte) (k : Nat) (s : State) : State :=
  match bs with
  | [] => s.countBits k
  | b :: bs => State.spelled bs k (s.append b)

theorem spelled_frame (bs : List Byte) (k : Nat) (s : State) :
    s.spelled bs k = { s with out := (s.spelled bs k).out, outLen := s.outLen + bs.length, k := s.k + k } := by
  induction bs generalizing s with
  | nil => rfl
  | cons b bs ih =>
    rw [State.spelled, ih]
    unfold State.append
    simp only [List.length_cons]
    congr 1
    omega

theorem spelled_out (bs : List Byte) (k : Nat) (s : State) {o : List Byte} (h : s.out.bytes 0 s.outLen = some o) :
    (s.spelled bs k).out.bytes 0 (s.spelled bs k).outLen = some (o ++ bs) := by
  induction bs generalizing s o with
  | nil => simpa [State.spelled, State.countBits] using h
  | cons b bs ih =>
    rw [State.spelled, ih (s.append b) (o := o ++ [b])]
    · simp
    · exact Memory.bytes_append h b

theorem spelled_countBits (bs : List Byte) (j k : Nat) (s : State) : (s.countBits j).spelled bs k = s.spelled bs (j + k) := by
  induction bs generalizing s with
  | nil => simp [State.spelled, State.countBits, Nat.add_assoc]
  | cons b bs ih => exact ih (s.append b)

/-- The code words of a byte list, from the root with room for the bytes, spell exactly those bytes (R87, R164). -/
theorem decodeBits_bytes {s : State} (hT : Tree s) (hc : s.cur = s.root) (d : List Byte)
    (hf : fits (s.outLen + d.length) s.inst.outMax = true) :
    decodeBits (d.flatMap fun b => codeOf s.code b.toNat) s =
      .going (s.spelled d (d.flatMap fun b => codeOf s.code b.toNat).length) := by
  induction d generalizing s with
  | nil => rfl
  | cons b d ih =>
    have hb := b.isLt
    obtain ⟨hs, hs1, hs2⟩ := hT.code.stream (s := b.toNat) (by omega)
    have hcur : s.cur = 512 := by rw [hc, hT.root]
    have hp := decodeBits_path hT (by rw [hcur]; decide) (by rw [hcur]; decide)
      (l := BitVec.ofNat 10 b.toNat) (by rw [toNat_ofNat10 (by omega)]; omega) (by rw [hcur]; exact hs)
    have hne : BitVec.ofNat 10 b.toNat ≠ Config.eos := by
      intro h
      have := congrArg BitVec.toNat h
      rw [toNat_ofNat10 (by omega)] at this
      have e : Config.eos.toNat = 256 := rfl
      omega
    have hset : (BitVec.ofNat 10 b.toNat).setWidth 8 = b := by
      apply BitVec.eq_of_toNat_eq; simp
    have hf1 : fits (s.outLen + 1) s.inst.outMax = true := fits_mono (by simp) hf
    have hm : ((s.countBits (codeOf s.code b.toNat).length).append b).moveTo s.root =
        (s.append b).countBits (codeOf s.code b.toNat).length := by
      rw [← hc]; rfl
    rw [arrive, if_neg hne, byteLeaf_eq, hset] at hp
    have hp' : decodeBits (codeOf s.code b.toNat) s = .going ((s.append b).countBits (codeOf s.code b.toNat).length) := by
      rw [hp, ← hm]; exact if_pos hf1
    rw [List.flatMap_cons, decodeBits_append, hp']
    dsimp only
    have := ih (s := (s.append b).countBits (codeOf s.code b.toNat).length) ⟨hT.code, hT.root⟩ hc
      (by simpa [State.countBits, Nat.add_assoc, Nat.add_comm 1] using hf)
    rw [spelled_countBits] at this
    rw [List.length_append]
    exact this

end Sys2Proof.Machine
end

