-- ==== Sys2Proof/Tests/Slice0.lean ====
section
/-! SUPPORT. The model's own tests, and for every statement with hypotheses a witness that meets them. Expected values come from
the spec: R99's stream column, R22, 95_test_vectors (its vector ids are in the comments). -/

namespace Sys2Proof.Tests

open Sys2Proof.Machine

/-! ## WellFormed: an ill-formed term for each check -/

theorem test_wf_refuses_the_reserved_command : CmdWord.wf 0 = false := by decide
theorem test_wf_refuses_a_code_of_no_bits : CodeEntry.wf ⟨0, 0⟩ = false := by decide
theorem test_wf_refuses_a_code_of_33_bits : CodeEntry.wf ⟨0, 33⟩ = false := by decide
theorem test_wf_refuses_a_bit_beyond_the_length : CodeEntry.wf ⟨0b10, 1⟩ = false := by decide
theorem test_wf_refuses_a_command_row_of_3_bits : Row.wf ⟨.init, 3, 1⟩ = false := by decide
theorem test_wf_refuses_a_command_row_beyond_2_bits : Row.wf ⟨.init, 2, 5⟩ = false := by decide
theorem test_wf_refuses_a_command_row_of_value_0 : Row.wf ⟨.init, 2, 0⟩ = false := by decide
theorem test_wf_refuses_a_code_row_of_no_bits : Row.wf ⟨.sym000, 0, 0⟩ = false := by decide
theorem test_wf_refuses_a_code_row_of_33_bits : Row.wf ⟨.sym000, 33, 0⟩ = false := by decide
theorem test_wf_refuses_a_code_row_beyond_its_bits : Row.wf ⟨.sym000, 1, 2⟩ = false := by decide

/-! ## Decoding: every constructor from its word, written out from the stream column of R99, first bit first -/

/-- A word written out, its bits as 0 and 1. -/
def wordBits (w : List Nat) : List Bool := w.map (· == 1)

/-- Each written-out word decodes to its instruction and leaves nothing. -/
def decodesAll (ws : List (List Nat × Instr)) : Bool :=
  ws.all fun p => (decodeCodeWord (wordBits p.1)).toOption == some (p.2, [])

theorem test_decode_commands : (decodeCommand 1).toOption = some .init ∧ (decodeCommand 2).toOption = some .compress ∧
    (decodeCommand 3).toOption = some .decompress ∧ (decodeCommand 0).toOption = none := by decide

def words0 : List (List Nat × Instr) := [
  ([1], .sym000), ([0,0,0,1], .sym001), ([0,1,0,0,0], .sym002), ([0,1,1,0,1,0,0,0], .sym003),
  ([0,1,1,1,1,0], .sym004), ([0,1,1,0,1,1,1], .sym005), ([0,1,1,0,1,1,0,0], .sym006), ([0,1,1,1,0,1,1,0], .sym007),
  ([0,0,1,0,0], .sym008), ([0,0,1,1,0,0,1], .sym009), ([0,1,0,1,1,1,1], .sym010), ([0,1,1,1,1,1,1,1], .sym011),
  ([0,1,0,0,1,1,1], .sym012), ([0,1,1,1,0,0], .sym013), ([0,0,1,0,1,1,1,1], .sym014), ([0,1,1,1,0,1,1,1,0], .sym015),
  ([0,1,0,1,0,1,1], .sym016), ([0,1,1,0,0,1,0,1,0], .sym017), ([0,0,1,1,1,0,1], .sym018), ([0,1,0,1,0,1,0,1,0], .sym019),
  ([0,0,0,0,1,1,1,1], .sym020), ([0,1,1,1,1,1,0,1,1,0], .sym021), ([0,0,1,0,1,1,0,0,0], .sym022), ([0,0,1,1,1,1,1,0,0], .sym023),
  ([0,0,0,0,1,0,0], .sym024), ([0,0,1,1,1,1,0,0,1], .sym025), ([0,1,0,0,1,0,0,0,0], .sym026), ([0,0,0,0,1,0,1,1,0], .sym027),
  ([0,1,0,1,0,0,0,0,0], .sym028), ([0,1,1,0,0,1,1], .sym029), ([0,1,0,1,0,0,1,1], .sym030), ([0,1,1,1,0,1,0,0,1,0], .sym031)]

theorem test_decode_words0 : decodesAll words0 = true := by decide +kernel

def words1 : List (List Nat × Instr) := [
  ([0,0,1,1,0,1,0,1,1], .sym032), ([0,0,1,1,0,0,0,1,0], .sym033), ([0,1,0,1,1,1,0,1,1], .sym034), ([0,1,1,0,0,1,0,1,1,1], .sym035),
  ([0,0,0,0,1,1,0,0,0], .sym036), ([0,1,0,1,0,0,0,1,0], .sym037), ([0,1,0,1,1,0,1,1,1], .sym038), ([0,1,0,0,1,1,0,1,0], .sym039),
  ([0,1,1,0,1,0,1], .sym040), ([0,1,0,1,1,1,0,0], .sym041), ([0,1,0,0,1,0,0,0,1], .sym042), ([0,1,1,1,1,1,1,0,1,0], .sym043),
  ([0,0,1,0,1,1,0,1,1], .sym044), ([0,1,1,0,1,1,0,1,0,1], .sym045), ([0,1,1,1,0,1,0,0,0,1], .sym046), ([0,1,1,0,1,0,0,1,1,0], .sym047),
  ([0,1,1,1,0,1,0,1,1,1], .sym048), ([0,1,1,1,1,1,0,0,1,0], .sym049), ([0,1,1,1,1,1,0,1,0,0], .sym050), ([0,1,0,1,1,0,1,0,1,1], .sym051),
  ([0,0,1,1,1,1,0,0,0,1,0], .sym052), ([0,0,1,1,1,0,0,0,1,0,1,1], .sym053), ([0,1,1,1,1,1,0,1,0,1,1,0,0], .sym054), ([0,1,0,1,0,0,0,1,1,1,0,0], .sym055),
  ([0,0,1,0,1,0,1,1,1,0,1,0], .sym056), ([0,0,0,0,1,1,1,0,0,1,1,1], .sym057), ([0,0,0,0,1,0,1,0,0,1,0,1], .sym058), ([0,0,1,0,1,1,1,0,0,1,1,0], .sym059),
  ([0,1,1,1,1,1,0,0,0,0,1,1,1], .sym060), ([0,0,1,0,1,1,1,0,0,0,0], .sym061), ([0,1,1,0,0,1,0,1,1,0,1,0,0], .sym062), ([0,1,0,0,1,0,1,0,1,0,0,0], .sym063)]

theorem test_decode_words1 : decodesAll words1 = true := by decide +kernel

def words2 : List (List Nat × Instr) := [
  ([0,1,0,1,0,0,1,0], .sym064), ([0,0,1,1,1,1,0,1,1], .sym065), ([0,1,0,1,1,0,1,0,1,0], .sym066), ([0,0,1,1,0,0,0,1,1,1], .sym067),
  ([0,1,0,1,1,0,0,1,1,0], .sym068), ([0,1,0,0,1,1,0,1,1,0], .sym069), ([0,0,1,1,1,1,0,0,0,0], .sym070), ([0,0,0,0,1,1,1,0,0,0], .sym071),
  ([0,0,1,1,1,1,1,0,1,0], .sym072), ([0,0,1,0,1,0,0,1], .sym073), ([0,1,0,1,0,1,0,0,1,0], .sym074), ([0,1,0,1,0,1,0,1,1], .sym075),
  ([0,0,1,1,0,0,0,0,1,1], .sym076), ([0,0,0,0,1,0,1,1,1,0], .sym077), ([0,1,1,0,0,1,0,0,0,0,1], .sym078), ([0,1,1,1,1,1,1,0,1,1,1], .sym079),
  ([0,1,1,1,0,1,0,1,0,0,0], .sym080), ([0,1,1,1,1,1,0,1,1,1,1], .sym081), ([0,1,1,1,1,1,0,0,0,0,0], .sym082), ([0,0,1,1,0,1,1], .sym083),
  ([0,0,1,0,1,0,0,0,0,1], .sym084), ([0,0,1,1,0,1,0,1,0], .sym085), ([0,1,0,1,1,1,0,1,0,0,0], .sym086), ([0,1,0,1,1,0,0,0,0,0,0], .sym087),
  ([0,0,0,0,1,1,0,0,1,1], .sym088), ([0,1,0,0,1,0,1,0,1,0,1], .sym089), ([0,1,0,1,0,0,0,1,1,1,0,1,0], .sym090), ([0,1,0,1,1,0,0,1,1,1,1,0], .sym091),
  ([0,1,0,1,1,1,0,1,0,0,1,1,1], .sym092), ([0,0,1,0,1,1,1,0,0,0,1,1], .sym093), ([0,0,1,1,1,1,1,0,1,1,1,0,0], .sym094), ([0,1,0,1,1,0,0,1,1,1,0,0,1], .sym095)]

theorem test_decode_words2 : decodesAll words2 = true := by decide +kernel

def words3 : List (List Nat × Instr) := [
  ([0,1,0,1,1,0,0,1,1,1,0,0,0], .sym096), ([0,0,1,1,1,0,0,0,1,0,1,0], .sym097), ([0,1,1,0,1,1,0,1,0,0,0,1,1], .sym098), ([0,0,1,0,1,0,1,1,1,0,0,0,1], .sym099),
  ([0,0,1,1,1,0,0,1,0,0,0,1], .sym100), ([0,0,1,1,1,0,0,1,0,0,0,0], .sym101), ([0,0,1,0,1,1,1,0,0,1,1,1,1], .sym102), ([0,0,1,0,1,1,1,0,0,1,1,1,0], .sym103),
  ([0,1,1,1,0,1,0,1,1,0,1,0,1], .sym104), ([0,1,1,1,0,1,0,1,1,0,1,0,0], .sym105), ([0,1,0,1,1,0,0,1,1,1,0,1,1], .sym106), ([0,1,0,1,1,0,0,1,1,1,0,1,0], .sym107),
  ([0,1,1,1,0,1,0,1,0,0,1,0,0,0], .sym108), ([0,0,1,0,1,1,1,0,0,0,1,0], .sym109), ([0,1,1,1,0,1,0,1,1,0,1,1,1], .sym110), ([0,1,1,0,1,1,0,1,0,0,0,1,0], .sym111),
  ([0,1,0,1,1,1,0,1,0,0,1,1,0], .sym112), ([0,0,0,0,1,1,1,0,0,1,1,0], .sym113), ([0,0,0,0,1,1,1,0,0,1,0], .sym114), ([0,0,1,0,1,1,1,0,0,1,0,1], .sym115),
  ([0,0,0,0,1,0,1,0,0,1,0,0], .sym116), ([0,1,1,0,1,1,0,1,0,0,1,0,1], .sym117), ([0,1,1,1,1,1,0,1,0,1,1,0,1,0], .sym118), ([0,1,0,1,0,0,0,1,1,1,0,1,1,0,1], .sym119),
  ([0,1,1,1,0,1,0,1,1,0,1,1,0], .sym120), ([0,0,0,0,1,0,1,0,0,1,1,1], .sym121), ([0,0,1,0,1,0,1,1,1,0,0,0,0], .sym122), ([0,1,1,1,0,1,0,1,1,0,0,0,1], .sym123),
  ([0,1,1,0,1,1,0,1,0,0,1,0,0], .sym124), ([0,0,1,0,1,0,1,0,1,1,0,1], .sym125), ([0,1,1,1,0,1,0,1,0,0,1,0,0,1], .sym126), ([0,0,1,1,1,0,0,0,1,1,1,0,1], .sym127)]

theorem test_decode_words3 : decodesAll words3 = true := by decide +kernel

def words4 : List (List Nat × Instr) := [
  ([0,0,0,0,0], .sym128), ([0,1,1,1,1,1,1,0,0,1], .sym129), ([0,0,1,1,0,1,0,0,1], .sym130), ([0,1,1,1,1,1,1,0,1,1,0], .sym131),
  ([0,1,0,1,1,0,0,0,1], .sym132), ([0,1,1,1,0,1,1,1,1,0,0], .sym133), ([0,1,0,0,1,0,1,0,0], .sym134), ([0,1,1,1,0,1,0,1,0,1,1], .sym135),
  ([0,1,0,1,1,0,1,0,0], .sym136), ([0,1,1,1,1,1,0,0,0,1,0], .sym137), ([0,1,0,0,1,1,0,0,1], .sym138), ([0,0,1,0,1,0,0,0,0,0], .sym139),
  ([0,0,1,0,1,1,0,1,0], .sym140), ([0,1,1,1,1,1,1,0,0,0,1], .sym141), ([0,0,1,1,1,1,1,1,1], .sym142), ([0,0,1,1,0,0,0,1,1,0], .sym143),
  ([0,1,1,0,0,1,0,0,1], .sym144), ([0,1,1,1,1,1,1,0,0,0,0], .sym145), ([0,0,1,1,0,1,0,0,0], .sym146), ([0,0,0,0,1,1,0,0,1,0], .sym147),
  ([0,1,1,0,0,0], .sym148), ([0,1,0,1,0,0,0,1,1,0], .sym149), ([0,1,0,0,1,1,0,0,0], .sym150), ([0,1,1,0,0,1,0,0,0,1,1], .sym151),
  ([0,0,1,0,1,1,0,0,1], .sym152), ([0,1,0,0,1,1,0,1,1,1], .sym153), ([0,1,0,1,0,1,0,0,0], .sym154), ([0,1,0,1,1,1,0,1,0,1,0], .sym155),
  ([0,1,0,0,1,0,1,1,1], .sym156), ([0,1,1,1,1,1,0,0,0,1,1], .sym157), ([0,0,1,1,1,0,0,1,1], .sym158), ([0,0,1,1,1,0,0,1,0,1], .sym159)]

theorem test_decode_words4 : decodesAll words4 = true := by decide +kernel

def words5 : List (List Nat × Instr) := [
  ([0,0,1,1,1,1,1,1,0], .sym160), ([0,1,0,1,1,0,0,0,0,1], .sym161), ([0,1,1,1,1,1,0,0,1,1], .sym162), ([0,1,1,1,0,1,1,1,1,1], .sym163),
  ([0,1,1,0,1,1,0,1,1], .sym164), ([0,0,1,1,0,0,0,0,0], .sym165), ([0,1,1,0,1,0,0,1,0], .sym166), ([0,0,1,1,0,0,0,0,1,0], .sym167),
  ([0,1,0,1,1,0,1,1,0], .sym168), ([0,1,1,0,1,0,0,1,1,1], .sym169), ([0,1,0,1,1,0,0,1,0], .sym170), ([0,0,1,0,1,0,1,1,1,1], .sym171),
  ([0,1,0,0,1,0,1,1,0], .sym172), ([0,0,0,0,1,0,1,1,1,1], .sym173), ([0,0,1,0,1,0,1,1,0], .sym174), ([0,1,1,1,1,1,0,1,1,1,0], .sym175),
  ([0,0,0,0,1,1,0,1], .sym176), ([0,0,1,0,1,0,1,0,0], .sym177), ([0,0,0,0,1,1,1,0,1], .sym178), ([0,1,1,1,0,1,0,1,0,1,0], .sym179),
  ([0,0,0,0,1,0,1,0,1], .sym180), ([0,1,1,0,0,1,0,0,0,1,0], .sym181), ([0,1,0,1,0,0,0,0,1], .sym182), ([0,1,1,1,0,1,0,0,1,1,1], .sym183),
  ([0,0,1,0,1,0,0,0,1], .sym184), ([0,1,1,1,0,1,0,0,1,1,0], .sym185), ([0,0,1,1,1,0,0,0,0], .sym186), ([0,1,1,1,0,1,1,1,1,0,1], .sym187),
  ([0,0,1,1,1,1,0,1,0], .sym188), ([0,1,1,1,0,1,0,0,0,0], .sym189), ([0,0,1,0,1,1,1,0,1], .sym190), ([0,1,0,1,0,1,0,0,1,1], .sym191)]

theorem test_decode_words5 : decodesAll words5 = true := by decide +kernel

def words6 : List (List Nat × Instr) := [
  ([0,1,0,1,1,1,0,1,0,1,1,1], .sym192), ([0,1,0,0,1,0,1,0,1,1,0,1], .sym193), ([0,0,1,1,1,1,0,0,0,1,1,1], .sym194), ([0,1,1,0,1,1,0,1,0,0,1,1], .sym195),
  ([0,0,1,1,1,0,0,1,0,0,1,1], .sym196), ([0,1,0,1,1,1,0,1,0,1,1,0], .sym197), ([0,1,1,1,1,1,0,0,0,0,1,0], .sym198), ([0,0,1,1,1,1,0,0,0,1,1,0], .sym199),
  ([0,1,1,1,1,1,0,1,0,1,0,1], .sym200), ([0,1,1,0,1,1,0,1,0,0,0,0], .sym201), ([0,0,1,1,1,0,0,1,0,0,1,0], .sym202), ([0,0,0,0,1,0,1,0,0,1,1,0], .sym203),
  ([0,1,0,1,0,0,0,1,1,1,1,1], .sym204), ([0,0,1,1,1,1,1,0,1,1,0,1], .sym205), ([0,1,1,1,0,1,0,1,0,0,1,1], .sym206), ([0,1,0,0,1,0,1,0,1,1,0,0], .sym207),
  ([0,1,0,0,1,0,1,0,1,1,1,1], .sym208), ([0,0,1,1,1,1,1,0,1,1,0,0], .sym209), ([0,1,1,0,0,1,0,1,1,0,0,1], .sym210), ([0,1,0,1,1,1,0,1,0,0,1,0], .sym211),
  ([0,0,0,0,1,0,1,0,0,0,0,1], .sym212), ([0,1,1,0,0,1,0,1,1,0,0,0], .sym213), ([0,1,0,1,0,0,0,1,1,1,1,0], .sym214), ([0,0,1,0,1,0,1,0,1,1,0,0], .sym215),
  ([0,0,1,1,1,0,0,0,1,0,0], .sym216), ([0,1,1,0,0,1,0,0,0,0,0,1], .sym217), ([0,1,1,1,0,1,0,1,1,0,0,0,0], .sym218), ([0,0,1,1,1,1,1,0,1,1,1,1], .sym219),
  ([0,1,0,1,1,0,0,0,0,0,1,0,1], .sym220), ([0,0,1,0,1,0,1,0,1,1,1,1], .sym221), ([0,0,1,0,1,0,1,0,1,1,1,0], .sym222), ([0,1,1,0,0,1,0,1,1,0,1,1], .sym223)]

theorem test_decode_words6 : decodesAll words6 = true := by decide +kernel

def words7 : List (List Nat × Instr) := [
  ([0,0,1,1,1,0,0,0,1,1,0,1], .sym224), ([0,0,1,0,1,0,1,0,1,0,0,1], .sym225), ([0,1,1,1,0,1,0,1,1,0,0,1,1], .sym226), ([0,0,1,0,1,1,1,0,0,1,0,0], .sym227),
  ([0,0,1,1,1,1,1,0,1,1,1,0,1], .sym228), ([0,0,0,0,1,0,1,0,0,0,0,0], .sym229), ([0,1,1,1,1,1,0,1,0,1,1,1], .sym230), ([0,1,0,1,1,0,0,0,0,0,1,0,0], .sym231),
  ([0,0,1,0,1,0,1,0,1,0,0,0], .sym232), ([0,1,1,1,0,1,0,1,1,0,0,1,0], .sym233), ([0,0,1,0,1,0,1,1,1,0,1,1], .sym234), ([0,0,1,0,1,0,1,0,1,0,1,1], .sym235),
  ([0,1,1,1,1,1,0,0,0,0,1,1,0], .sym236), ([0,1,1,0,0,1,0,0,0,0,0,0], .sym237), ([0,0,0,0,1,0,1,0,0,0,1,1], .sym238), ([0,0,1,0,1,0,1,0,1,0,1,0], .sym239),
  ([0,1,1,1,1,1,0,1,0,1,1,0,1,1], .sym240), ([0,0,1,1,1,0,0,0,1,1,1,0,0], .sym241), ([0,1,0,1,1,0,0,1,1,1,1,1], .sym242), ([0,1,0,0,1,0,1,0,1,1,1,0], .sym243),
  ([0,1,0,0,1,0,1,0,1,0,0,1], .sym244), ([0,0,0,0,1,0,1,0,0,0,1,0], .sym245), ([0,0,1,1,1,0,0,0,1,1,0,0], .sym246), ([0,1,1,1,1,1,0,1,0,1,0,0,1], .sym247),
  ([0,1,0,1,0,0,0,1,1,1,0,1,1,1], .sym248), ([0,1,1,1,1,1,0,1,0,1,0,0,0], .sym249), ([0,1,1,1,0,1,0,1,0,0,1,0,1], .sym250), ([0,0,1,1,1,0,0,0,1,1,1,1], .sym251),
  ([0,1,1,0,0,1,0,1,1,0,1,0,1], .sym252), ([0,0,1,0,1,0,1,1,1,0,0,1], .sym253), ([0,1,0,1,1,0,0,0,0,0,1,1], .sym254), ([0,1,0,0,1,0,0,1], .sym255),
  ([0,1,0,1,0,0,0,1,1,1,0,1,1,0,0], .symEos)]

theorem test_decode_words7 : decodesAll words7 = true := by decide +kernel

/-- Bits behind a code word are left; bits that end inside one are rejected by name (R90). -/
theorem test_decode_leaves_the_rest : (decodeBytes [174, 149]).toOption = some (.sym104, [false, false, true]) ∧
    (decodeBytes [138]).toOption = none := by decide

/-- Opcode-table words: the command space comes first at one byte (log 2), then the code words. -/
theorem test_decodeTableWord : decodeTableWord 8 1 = some .init ∧ decodeTableWord 8 2 = some .compress ∧
    decodeTableWord 8 3 = some .decompress ∧ decodeTableWord 8 8 = some .sym001 ∧ decodeTableWord 8 0 = some .sym128 ∧
    decodeTableWord 16 0x1B8A = some .symEos ∧ decodeTableWord 16 0x15AE = some .sym104 := by decide

/-! ## Small states -/

/-- After INIT on the default instance, with `bs` written to `IN`. -/
def readyWith (bs : List Byte) : State := hostWriteIn bs (loadTables defaultTables State.reset)

/-- The result a host reads: `RES`, `OUT_LEN`, `OUT`. -/
def hostView : Host.Outcome State Fault Refusal → Option (Result × Nat × Option (List Byte))
  | .next t => some (t.res, t.outLen, t.outputBytes)
  | _ => none

/-! ## INIT -/

/-- I1: INIT on the default instance ends `OK` with `READY = 1`, `ROOT = 512`, and the tables written out in the spec. -/
theorem test_init_default (s : State) (h : s.inst.freq = Config.defaultFreq) : exec .init s =
    .next (releaseBuilder (succeed (loadTables defaultTables s))) := by
  change execInit s = _
  rw [execInit, h, if_pos defaultFreq_length, buildTables_default]

/-- I5: a `FREQ` of 256 entries is a `ConfigurationError`, and clears an earlier `READY`. -/
theorem test_init_wrong_length :
    let s := { readyWith [] with inst := { Config.defaultInstance with freq := List.replicate 256 1 }, outLen := 5 }
    hostView (exec .init s) = some (.configurationError, 0, some []) ∧
      (match exec .init s with | .next t => t.ready | _ => true) = false := by decide +kernel

/-- I2, I3, I4: the first merges of the all-ones, ramp and all-zeros tables, ties and all. -/
theorem test_merges_of_ties :
    (mergeLoop 2 257 (liveFrom 0 (List.replicate 257 1))).1 = [⟨2, 256, 255⟩, ⟨2, 254, 253⟩] ∧
    (mergeLoop 2 257 (liveFrom 0 ((List.range 257).map fun i => BitVec.ofNat 32 (i + 1)))).1 =
      [⟨3, 0, 1⟩, ⟨6, 257, 2⟩] ∧
    (mergeLoop 2 257 (liveFrom 0 (List.replicate 257 0))).1 = [⟨0, 256, 255⟩, ⟨0, 257, 254⟩] := by
  decide +kernel

/-! ## COMPRESS -/

/-- E15 (S8): the source's vector. -/
theorem test_compress_hello_world :
    hostView (exec .compress (readyWith [104, 101, 108, 108, 111, 32, 119, 111, 114, 108, 100])) =
      some (.ok, 20, some [174, 149, 19, 92, 9, 87, 194, 22, 177, 86, 220, 218, 34, 56, 185, 18, 156, 168, 184, 1]) := by
  decide +kernel

/-- E2 (aligned, no extra byte) and E9 (a 15-bit code arriving with 7 bits pending). -/
theorem test_compress_aligned_and_longest :
    hostView (exec .compress (readyWith [0])) = some (.ok, 2, some [21, 55]) ∧
    hostView (exec .compress (readyWith [119, 119])) = some (.ok, 6, some [138, 91, 197, 173, 226, 6]) := by
  decide +kernel

/-! ## DECOMPRESS -/

/-- X15, X16 in one: the source's vector with its pad bits flipped and two bytes of junk behind it. -/
theorem test_decompress_hello_world :
    hostView (exec .decompress (readyWith [174, 149, 19, 92, 9, 87, 194, 22, 177, 86, 220, 218, 34, 56, 185, 18, 156, 168,
      184, 249, 222, 173])) = some (.ok, 11, some [104, 101, 108, 108, 111, 32, 119, 111, 114, 108, 100]) := by
  decide +kernel

/-- X6 (EOS ends on the last bit), X8 (a decoded byte is not delivered). -/
theorem test_decompress_ends :
    hostView (exec .decompress (readyWith [21, 55])) = some (.ok, 1, some [0]) ∧
    hostView (exec .decompress (readyWith [21])) = some (.truncatedInput, 0, some []) := by
  decide +kernel

/-- X1 (empty input), X9 (whole code words and no EOS). -/
theorem test_decompress_truncated :
    hostView (exec .decompress (readyWith [])) = some (.truncatedInput, 0, some []) ∧
    hostView (exec .decompress (readyWith [255])) = some (.truncatedInput, 0, some []) := by
  decide +kernel

/-! ## Code words, and the step -/

/-- A code word, from the root of the default tree, appends its own byte (R164). -/
theorem test_code_words_append_their_byte :
    ([0, 1, 128, 119, 255].all fun sym =>
      match symbolInstr sym with
      | some i => hostView (exec i (beginDecode (readyWith []))) == some (.ok, 1, some [BitVec.ofNat 8 sym])
      | none => false) = true := by
  decide +kernel

/-- The EOS code word ends the command: no byte, and the decoder is idle again (R164). -/
theorem test_code_word_eos :
    (match exec .symEos (beginDecode (readyWith [])) with
      | .next t => some (t.res, t.outLen, t.phase)
      | _ => none) = some (.ok, 0, .idle) := by
  decide +kernel

/-- P3, steps 1 to 3 of its queue: not ready, then the reserved command. -/
theorem test_steps_before_init :
    hostView (step { State.reset with host := [.writeIn [104], .writeCmd 2] }) = some (.ok, 0, some []) ∧
    hostView (step { State.reset with host := [.writeCmd 2] }) = some (.configurationError, 0, some []) ∧
    hostView (step { State.reset with host := [.writeCmd 3] }) = some (.configurationError, 0, some []) ∧
    (match step { State.reset with host := [.writeCmd 0] } with | .refused r => some r | _ => none) =
      some .reservedCommand := by
  decide +kernel

/-- A word of the opcode table placed where the step fetches: a command from reset, and the code word of `h`. -/
theorem test_withFetchWord :
    hostView (step (State.reset.withFetchWord 8 2)) = some (.configurationError, 0, some []) ∧
    hostView (step (State.reset.withFetchWord 16 0x15AE)) = some (.ok, 1, some [104]) := by
  decide +kernel

/-! ## Witnesses: the hypotheses of the statements are met together -/

theorem answers_of {o : Host.Outcome State Fault Refusal} (h : (hostView o).isSome = true) : ∃ t, o = .next t := by
  cases o with
  | next t => exact ⟨t, rfl⟩
  | fault e => cases h
  | refused r => cases h

/-- The next state, with what the host reads from it. -/
theorem answers_with {o : Host.Outcome State Fault Refusal} {v : Result × Nat × Option (List Byte)}
    (h : hostView o = some v) : ∃ t, o = .next t ∧ (t.res, t.outLen, t.outputBytes) = v := by
  cases o with
  | next t => exact ⟨t, rfl, by simpa [hostView] using h⟩
  | fault e => cases h
  | refused r => cases h

theorem defaultTables_lengths : defaultTables.node.length = Config.nnode ∧ defaultTables.code.length = Config.nsym :=
  buildTables_lengths defaultFreq_length buildTables_default

/-- The small ready states meet the invariant. -/
theorem readyWith_inv (bs : List Byte) : (readyWith bs).Inv where
  nodeLength := defaultTables_lengths.1
  codeLength := defaultTables_lengths.2
  built _ := ⟨defaultFreq_length, buildTables_default⟩
  inFilled := Memory.filled_ofBytes bs
  outFilled := Memory.filled_nil
  inFits := rfl
  outFits := rfl
  decoding h := by cases h

/-- The same states with bounded buffers. -/
theorem readyWith_bounded_inv (bs : List Byte) (m n : Nat) (h : bs.length ≤ m) :
    State.Inv { readyWith bs with inst := { freq := Config.defaultFreq, inMax := some m, outMax := some n } } where
  nodeLength := defaultTables_lengths.1
  codeLength := defaultTables_lengths.2
  built _ := ⟨defaultFreq_length, buildTables_default⟩
  inFilled := Memory.filled_ofBytes bs
  outFilled := Memory.filled_nil
  inFits := by simpa [readyWith] using h
  outFits := fits_zero _
  decoding h := by cases h

theorem decodingWith_ok (bs : List Byte) : DecodingOk (beginDecode (readyWith bs)) where
  ready := rfl
  internal := by
    rw [show (beginDecode (readyWith bs)).cur = 512 from rfl]
    decide
  consumed := Nat.zero_le _

theorem decodingWith_inv (bs : List Byte) : (beginDecode (readyWith bs)).Inv where
  nodeLength := defaultTables_lengths.1
  codeLength := defaultTables_lengths.2
  built _ := ⟨defaultFreq_length, buildTables_default⟩
  inFilled := Memory.filled_ofBytes bs
  outFilled := Memory.filled_nil
  inFits := rfl
  outFits := rfl
  decoding _ := decodingWith_ok bs

/-- The default `FREQ` is in the range of R9, as R9 says. -/
theorem defaultFreq_inRange : FreqInRange Config.defaultFreq where
  length := defaultFreq_length
  sum := defaultFreq_sum
  depth := by
    rw [builtNode_default]
    decide +kernel

theorem readyWith_inputBytes (bs : List Byte) : (readyWith bs).inputBytes = some bs := Memory.bytes_ofBytes bs

theorem readyWith_inputBits (bs : List Byte) : (readyWith bs).inputBits = some (bytesBits bs) := by
  rw [State.inputBits, readyWith_inputBytes]
  rfl

theorem witness_HostResetStep : ∃ (s : State) (rest : List HostAction),
    s.phase = .idle ∧ s.host = .reset :: rest ∧ s.ready = true :=
  ⟨(readyWith [1]).withHost [.reset], [], rfl, rfl, rfl⟩

theorem witness_HostWriteInStep :
    (∃ (s : State) (bs : List Byte) (rest : List HostAction), s.phase = .idle ∧ s.host = .writeIn bs :: rest ∧
      fits bs.length s.inst.inMax = true ∧ bs ≠ []) ∧
    (∃ (s : State) (bs : List Byte) (rest : List HostAction), s.phase = .idle ∧ s.host = .writeIn bs :: rest ∧
      s.inst.inMax = some 2 ∧ fits bs.length s.inst.inMax = true ∧ bs.length = 2) ∧
    (∃ (s : State) (bs : List Byte) (rest : List HostAction), s.phase = .idle ∧ s.host = .writeIn bs :: rest ∧
      s.inst.inMax = some 2 ∧ fits bs.length s.inst.inMax = false ∧ bs.length = 3) :=
  ⟨⟨State.reset.withHost [.writeIn [7]], [7], [], rfl, rfl, rfl, by simp⟩,
   ⟨{ State.reset with inst := { Config.defaultInstance with inMax := some 2 }, host := [.writeIn [7, 8]] },
     [7, 8], [], rfl, rfl, rfl, rfl, rfl⟩,
   ⟨{ State.reset with inst := { Config.defaultInstance with inMax := some 2 }, host := [.writeIn [7, 8, 9]] },
     [7, 8, 9], [], rfl, rfl, rfl, rfl, rfl⟩⟩

theorem witness_IdleStepChangesNothing : ∃ s : State, s.phase = .idle ∧ s.host = [] ∧ s.ready = true :=
  ⟨readyWith [], rfl, rfl, rfl⟩

theorem witness_StepRunsTheDecodedCommand : ∃ (s : State) (c : CmdWord) (rest : List HostAction) (i : Instr),
    s.phase = .idle ∧ s.host = .writeCmd c :: rest ∧ decodeCommand c = .ok i :=
  ⟨(readyWith [1]).withHost [.writeCmd 3], 3, [], .decompress, rfl, rfl, rfl⟩

theorem witness_StepRunsTheDecodedCodeWord : ∃ (s : State) (bits rest : List Bool) (i : Instr),
    s.phase = .decoding ∧ s.inputBits = some bits ∧ decodeCodeWord (bits.drop s.k) = .ok (i, rest) :=
  ⟨beginDecode (readyWith [21, 55]), bytesBits [21, 55], (bytesBits [21, 55]).drop 1, .sym000, rfl,
    readyWith_inputBits _, rfl⟩

theorem witness_ReservedCommandIsRefused : ∃ (s : State) (rest : List HostAction),
    s.phase = .idle ∧ s.host = .writeCmd 0 :: rest :=
  ⟨(readyWith [1]).withHost [.writeCmd 0], [], rfl, rfl⟩

theorem witness_DecodeOfEncodeIsTheInstruction : Instr.isCommand .init = true ∧ Instr.isCommand .sym119 = false ∧
    Instr.isCommand .symEos = false := by decide

theorem witness_DecodedBitsAreTheEncoding : decodeCommand 1 = .ok .init ∧
    decodeCodeWord [true, false] = .ok (.sym000, [false]) := ⟨rfl, rfl⟩

theorem witness_LongBitStringsAlwaysDecode : ∃ bits : List Bool, bits.length = 15 ∧ 15 ≤ bits.length :=
  ⟨List.replicate 15 false, by decide, by decide⟩

theorem witness_MaskAndMatchSelectOneRow : ∃ r ∈ codeRows, r.len ≤ 15 ∧ 0x1B8A &&& (2 ^ r.len - 1) = r.word ∧
    r.instr = .symEos :=
  ⟨⟨.symEos, 15, 0x1B8A⟩, by decide, by decide, by decide, rfl⟩

theorem witness_PackedStreamHoldsTheBits : ([21, 55] : List Byte)[15 / 8]? = some 55 := by decide

theorem witness_InitCompletes : ∃ s : State, FreqInRange s.inst.freq ∧ s.inst.freq.length = Config.nsym :=
  ⟨State.reset, defaultFreq_inRange, defaultFreq_length⟩

theorem witness_InitOutOfRangeIsRefused : ∃ s : State, s.inst.freq.length = Config.nsym ∧ ¬ FreqInRange s.inst.freq :=
  ⟨{ State.reset with inst := { Config.defaultInstance with freq := List.replicate 257 0xFFFFFFFF } }, by decide +kernel,
    fun h => absurd h.sum (by decide +kernel)⟩

theorem witness_InitWrongLengthIsConfigurationError :
    (∃ s : State, s.inst.freq.length = 256 ∧ s.inst.freq.length ≠ Config.nsym) ∧
    (∃ s : State, s.inst.freq.length = 258 ∧ s.inst.freq.length ≠ Config.nsym) ∧
    (∃ s t : State, s.inst.freq.length = Config.nsym ∧ exec .init s = .next t) :=
  ⟨⟨{ State.reset with inst := { Config.defaultInstance with freq := List.replicate 256 1 } }, by decide +kernel,
      by decide +kernel⟩,
   ⟨{ State.reset with inst := { Config.defaultInstance with freq := List.replicate 258 1 } }, by decide +kernel,
      by decide +kernel⟩,
   ⟨State.reset, _, defaultFreq_length, test_init_default _ rfl⟩⟩

theorem witness_InitMakesALeafPerSymbol : FreqInRange State.reset.inst.freq ∧ 256 < Config.nsym :=
  ⟨defaultFreq_inRange, by decide⟩

theorem witness_InitMergesTheTwoSmallest : FreqInRange State.reset.inst.freq ∧ isLive defaultNode 258 257 ∧
    ¬ isLive defaultNode 258 119 :=
  ⟨defaultFreq_inRange, by unfold isLive; decide +kernel, by unfold isLive; decide +kernel⟩

theorem witness_InitAssignsEachLeafItsPath : FreqInRange State.reset.inst.freq ∧ 256 < Config.nsym ∧
    follow defaultNode [true] 512 = some 0 :=
  ⟨defaultFreq_inRange, by decide, by decide +kernel⟩

theorem witness_ReadyTreeIsFull : ∃ s : State, s.Inv ∧ s.ready = true := ⟨readyWith [], readyWith_inv _, rfl⟩

theorem witness_ReadyCodeTableIsPrefixFree :
    ∃ s : State, s.Inv ∧ s.ready = true ∧ s.inst.freq = Config.defaultFreq ∧ s.code[256]? = some ⟨0x1B8A, 15⟩ :=
  ⟨readyWith [], readyWith_inv _, rfl, rfl, by decide +kernel⟩

theorem witness_InitIsDeterministic : ∃ (s s' t t' u : State) (d : List Byte), s.inst.freq = s'.inst.freq ∧ s ≠ s' ∧
    s.inst.freq.length = Config.nsym ∧ exec .init s = .next t ∧ exec .init s' = .next t' ∧
    s.inst.outMax = s'.inst.outMax ∧ exec .compress (hostWriteIn d t) = .next u ∧ d = [0] := by
  obtain ⟨u, hu⟩ : ∃ u, exec .compress (hostWriteIn [0]
      (releaseBuilder (succeed (loadTables defaultTables State.reset)))) = .next u := ⟨_, rfl⟩
  refine ⟨State.reset, { State.reset with outLen := 1 }, releaseBuilder (succeed (loadTables defaultTables State.reset)),
    releaseBuilder (succeed (loadTables defaultTables { State.reset with outLen := 1 })), u, [0], rfl, ?_,
    defaultFreq_length, test_init_default _ rfl, test_init_default _ rfl, rfl, hu, rfl⟩
  intro h
  exact absurd (congrArg State.outLen h) (by decide)

theorem witness_CompressNotReady : ∃ s : State, s.ready = false := ⟨State.reset, rfl⟩

theorem witness_CompressWritesThePackedBitString : ∃ (s : State) (d : List Byte), s.Inv ∧ s.ready = true ∧
    s.inputBytes = some d ∧ fits (packBits (bitString s.code d)).length s.inst.outMax = true ∧ d = [119] :=
  ⟨readyWith [119], [119], readyWith_inv _, rfl, readyWith_inputBytes _, rfl, rfl⟩

theorem witness_CompressLengthIsTheBitTotal : ∃ (s t : State) (d : List Byte), s.Inv ∧ s.ready = true ∧
    s.inputBytes = some d ∧ exec .compress s = .next t := by
  obtain ⟨t, ht⟩ := answers_of (o := exec .compress (readyWith [0])) (by decide +kernel)
  exact ⟨readyWith [0], t, [0], readyWith_inv _, rfl, readyWith_inputBytes _, ht⟩

theorem witness_CompressCapacity :
    (∃ s : State, s.Inv ∧ s.ready = true ∧ s.inst.outMax = some 8 ∧
      fits ((32 * (s.inLen + 1) + 7) / 8) s.inst.outMax = true) ∧
    (∃ (s : State) (d : List Byte), s.Inv ∧ s.ready = true ∧ s.inputBytes = some d ∧ s.inst.outMax = some 1 ∧
      (packBits (bitString s.code d)).length = 2 ∧ fits (packBits (bitString s.code d)).length s.inst.outMax = false) :=
  ⟨⟨_, readyWith_bounded_inv [0] 1 8 (by decide), rfl, rfl, rfl⟩,
   ⟨_, [0], readyWith_bounded_inv [0] 1 1 (by decide), rfl, readyWith_inputBytes [0], rfl, by decide +kernel,
     by decide +kernel⟩⟩

theorem witness_CompressDependsOnCodeAndInputOnly : ∃ s s' t : State, s ≠ s' ∧ s'.ready = s.ready ∧ s'.code = s.code ∧
    s'.inp = s.inp ∧ s'.inLen = s.inLen ∧ s'.inst.outMax = s.inst.outMax ∧ exec .compress s = .next t := by
  obtain ⟨t, ht⟩ := answers_of (o := exec .compress (readyWith [0])) (by decide +kernel)
  refine ⟨readyWith [0], { readyWith [0] with root := 5 }, t, ?_, rfl, rfl, rfl, rfl, rfl, ht⟩
  intro h
  exact absurd (congrArg State.root h) (by decide)

theorem witness_DecompressNotReady : ∃ s : State, s.ready = false ∧ s.phase = .decoding :=
  ⟨beginDecode State.reset, rfl, rfl⟩

theorem bitString_zero : bytesBits [21, 55] = bitString (readyWith [21, 55]).code [0] ++ [] := by decide +kernel

theorem witness_DecompressStopsAtEos : ∃ (s : State) (d : List Byte) (rest : List Bool), s.Inv ∧ s.ready = true ∧
    s.inputBits = some (bitString s.code d ++ rest) ∧ fits d.length s.inst.outMax = true ∧ d ≠ [] :=
  ⟨readyWith [21, 55], [0], [], readyWith_inv _, rfl, by rw [readyWith_inputBits, bitString_zero], rfl, by simp⟩

theorem witness_RoundTrip : ∃ (s t : State) (b : List Byte), s.Inv ∧ s.ready = true ∧ s.inputBytes = some b ∧
    fits b.length s.inst.outMax = true ∧ exec .compress s = .next t ∧ b ≠ [] := by
  obtain ⟨t, ht⟩ := answers_of (o := exec .compress (readyWith [0])) (by decide +kernel)
  exact ⟨readyWith [0], t, [0], readyWith_inv _, rfl, readyWith_inputBytes _, rfl, ht, by simp⟩

theorem witness_DecompressTruncatedInput :
    (∃ (s : State) (d : List Byte) (bits : List Bool), s.Inv ∧ s.ready = true ∧ s.inputBits = some bits ∧
      bits <+: bitString s.code d ∧ bits ≠ bitString s.code d ∧ fits d.length s.inst.outMax = true ∧ bits ≠ []) ∧
    (∃ (s : State) (d : List Byte) (bits : List Bool), s.Inv ∧ s.ready = true ∧ s.inputBits = some bits ∧
      bits <+: bitString s.code d ∧ bits ≠ bitString s.code d ∧ fits d.length s.inst.outMax = true ∧ bits = []) :=
  ⟨⟨readyWith [21], [0], bytesBits [21], readyWith_inv _, rfl, readyWith_inputBits _, by decide +kernel,
      by decide +kernel, rfl, by decide⟩,
   ⟨readyWith [], [], [], readyWith_inv _, rfl, readyWith_inputBits _, List.nil_prefix, by decide +kernel, rfl, rfl⟩⟩

theorem witness_DecompressIsTotal : ∃ (s : State) (bits : List Bool), s.Inv ∧ s.ready = true ∧
    s.inputBits = some bits ∧ fits (8 * s.inLen) s.inst.outMax = true ∧ s.inst.outMax = some 8 :=
  ⟨_, bytesBits [255], readyWith_bounded_inv [255] 1 8 (by decide), rfl, readyWith_inputBits [255], rfl, rfl⟩

theorem witness_DecompressEmptyInputIsTruncated : ∃ s : State, s.ready = true ∧ s.inLen = 0 ∧
    s.node = List.replicate 513 ⟨0, Config.null, Config.null⟩ :=
  ⟨{ State.reset with ready := true, node := List.replicate 513 ⟨0, Config.null, Config.null⟩ }, rfl, rfl, rfl⟩

theorem witness_CorruptStreamIsRaisedAndUnreachable :
    (∃ (s u : State) (walked bits : List Bool) (b : Bool) (nd : Node), s.ready = true ∧
      s.inputBits = some (walked ++ b :: bits) ∧ decodeBits walked (startDecoder s) = .going u ∧
      u.nodeAt u.cur = some nd ∧ branch b nd = Config.null) ∧
    (∃ s t : State, s.Inv ∧ s.res ≠ .corruptStream ∧ step s = .next t) :=
  ⟨⟨{ readyWith [0] with root := 0 }, _, [], List.replicate 7 false, false, leafNode 1073741824, rfl,
      (readyWith_inputBits [0]).trans (by decide), rfl, by decide +kernel, rfl⟩,
   ⟨readyWith [], _, readyWith_inv _, by decide, rfl⟩⟩

theorem witness_DecompressDependsOnTreeAndInputOnly : ∃ s s' t : State, s ≠ s' ∧ s'.ready = s.ready ∧
    s'.node = s.node ∧ s'.root = s.root ∧ s'.inp = s.inp ∧ s'.inLen = s.inLen ∧
    s'.inst.outMax = s.inst.outMax ∧ exec .decompress s = .next t := by
  obtain ⟨t, ht⟩ := answers_of (o := exec .decompress (readyWith [21, 55])) (by decide +kernel)
  refine ⟨readyWith [21, 55], { readyWith [21, 55] with code := [] }, t, ?_, rfl, rfl, rfl, rfl, rfl, rfl, ht⟩
  intro h
  exact absurd (congrArg (fun s => s.code.length) h) (by decide +kernel)

theorem witness_CodeWordAppendsItsByte :
    (∃ (s : State) (i : Instr), symbolInstr 0 = some i ∧ s.ready = true ∧ s.node = defaultNode ∧ s.root = 512 ∧
      s.cur = s.root ∧ fits (s.outLen + 1) s.inst.outMax = true) ∧
    (∃ (s : State) (i : Instr), symbolInstr 255 = some i ∧ s.ready = true ∧ s.node = defaultNode ∧ s.root = 512 ∧
      s.cur = s.root ∧ fits (s.outLen + 1) s.inst.outMax = true) :=
  ⟨⟨beginDecode (readyWith []), .sym000, by decide +kernel, rfl, rfl, rfl, rfl, rfl⟩,
   ⟨beginDecode (readyWith []), .sym255, by decide +kernel, rfl, rfl, rfl, rfl, rfl⟩⟩

theorem witness_CodeWordOfEosEndsTheCommand :
    ∃ s : State, s.ready = true ∧ s.node = defaultNode ∧ s.root = 512 ∧ s.cur = s.root :=
  ⟨beginDecode (readyWith []), rfl, rfl, rfl, rfl⟩

theorem witness_CodeWordsCompleteOnAnyTables : ∃ (s : State) (i : Instr), s.Inv ∧ DecodingOk s ∧ i.isCommand = false ∧
    fits (s.outLen + 15) s.inst.outMax = true :=
  ⟨beginDecode (readyWith [1]), .symEos, decodingWith_inv _, decodingWith_ok _, by decide, rfl⟩

theorem witness_CodeWordsNotReady : ∃ (s : State) (i : Instr), i.isCommand = false ∧ s.ready = false :=
  ⟨State.reset, .sym042, by decide, rfl⟩

theorem witness_SerialDecodingRefinesDecompress :
    ∃ s : State, s.Inv ∧ s.ready = true ∧ s.phase = .idle ∧ s.inLen = 2 :=
  ⟨readyWith [21, 55], readyWith_inv _, rfl, rfl, rfl⟩

theorem witness_CommandsEndAsTheTableSays :
    (∃ s t : State, s.Inv ∧ exec .init s = .next t) ∧ (∃ s t : State, s.Inv ∧ exec .compress s = .next t ∧ t.res = .ok) ∧
    (∃ s t : State, s.Inv ∧ exec .decompress s = .next t ∧ t.res = .ok) ∧
    (∃ s t : State, s.Inv ∧ exec .decompress s = .next t ∧ t.res = .truncatedInput) := by
  obtain ⟨t, ht, hv⟩ := answers_with test_compress_aligned_and_longest.1
  obtain ⟨u, hu, hw⟩ := answers_with test_decompress_ends.1
  obtain ⟨v, hv', hx⟩ := answers_with test_decompress_ends.2
  exact ⟨⟨readyWith [], _, readyWith_inv _, test_init_default _ rfl⟩, ⟨_, t, readyWith_inv _, ht, congrArg Prod.fst hv⟩,
    ⟨_, u, readyWith_inv _, hu, congrArg Prod.fst hw⟩, ⟨_, v, readyWith_inv _, hv', congrArg Prod.fst hx⟩⟩

theorem witness_FailureDeliversNothing : ∃ (i : Instr) (s t : State), i.isCommand = true ∧ exec i s = .next t ∧
    t.res ≠ .ok ∧ s.outLen = 3 := by
  refine ⟨.compress, { State.reset with outLen := 3 }, _, by decide, rfl, by decide, rfl⟩

theorem witness_ResultIsNotSticky : Instr.isCommand .decompress = true := by decide

theorem witness_OnlyInitAndResetWriteTheTables : ∃ s t : State, step s = .next t ∧ s ≠ t := by
  refine ⟨(readyWith []).withHost [.writeIn [5]], _, rfl, ?_⟩
  intro h
  exact absurd (congrArg State.inLen h) (by decide)

theorem witness_EncoderAndDecoderFrame : (∃ s t : State, exec .compress s = .next t ∧ t.res = .ok) ∧
    (∃ s t : State, exec .decompress s = .next t ∧ t.res = .ok) ∧
    (∃ (i : Instr) (s t : State), i.isCommand = false ∧ exec i s = .next t) := by
  obtain ⟨t, ht, hv⟩ := answers_with test_compress_aligned_and_longest.1
  obtain ⟨u, hu, hw⟩ := answers_with test_decompress_ends.1
  obtain ⟨v, hx⟩ := answers_of (o := exec .sym104 (beginDecode (readyWith []))) (by decide +kernel)
  exact ⟨⟨_, t, ht, congrArg Prod.fst hv⟩, ⟨_, u, hu, congrArg Prod.fst hw⟩, ⟨.sym104, _, v, by decide, hx⟩⟩

theorem witness_EarlierCommandsDoNotInterfere : ∃ s t u : State, exec .compress s = .next t ∧
    exec .decompress s = .next u ∧ u.res = .ok := by
  obtain ⟨t, ht⟩ := answers_of (o := exec .compress (readyWith [21, 55])) (by decide +kernel)
  obtain ⟨u, hu, hw⟩ := answers_with test_decompress_ends.1
  exact ⟨_, t, u, ht, hu, congrArg Prod.fst hw⟩

theorem witness_InvariantKept : ∃ s t : State, s.Inv ∧ step s = .next t ∧ s ≠ t ∧ s.phase = .decoding := by
  obtain ⟨t, ht, hv⟩ := answers_with
    (o := step (beginDecode (readyWith [21, 55]))) (v := (.ok, 1, some [0])) (by decide +kernel)
  refine ⟨_, t, decodingWith_inv [21, 55], ht, ?_, rfl⟩
  rintro rfl
  exact absurd (congrArg (fun p => p.2.1) hv) (by decide)

theorem witness_MemoryFormKept : ∃ s t : State, s.inp.wf = true ∧ s.out.wf = true ∧ step s = .next t ∧ s.inp ≠ [] :=
  ⟨readyWith [5, 6], _, Memory.ofBytes_wf 0 _, rfl, rfl, by decide⟩

theorem witness_StepNeverFaults : ∃ s : State, s.Inv ∧ s.phase = .decoding :=
  ⟨beginDecode (readyWith [1]), decodingWith_inv _, rfl⟩

theorem reset_inv_clauses : State.reset.node.length = Config.nnode ∧ State.reset.code.length = Config.nsym := by
  decide +kernel

theorem witness_EveryStepAnswersOnSupportedRuns :
    (∃ s : State, s.Inv ∧ s.inst.inMax = none ∧ s.inst.outMax = none ∧ FreqInRange s.inst.freq ∧
      (∀ rest, s.host ≠ .writeCmd 0 :: rest) ∧ s.phase = .decoding) ∧
    (∃ s : State, s.Inv ∧ s.inst.inMax = none ∧ s.inst.outMax = none ∧ s.inst.freq.length ≠ Config.nsym ∧
      (∀ rest, s.host ≠ .writeCmd 0 :: rest)) :=
  ⟨⟨beginDecode (readyWith [1]), decodingWith_inv _, rfl, rfl, defaultFreq_inRange, (fun _ h => by cases h), rfl⟩,
   ⟨{ State.reset with inst := { Config.defaultInstance with freq := [1] } },
     { nodeLength := reset_inv_clauses.1
       codeLength := reset_inv_clauses.2
       built := fun h => by cases h
       inFilled := rfl
       outFilled := rfl
       inFits := rfl
       outFits := rfl
       decoding := fun h => by cases h }, rfl, rfl, by decide, fun _ h => by cases h⟩⟩

end Sys2Proof.Tests
end

section
/-! SUPPORT. INIT refuses a `FREQ` outside the range of R9 (O15). A walk of `ASSIGN` that answers had room for every level it
met, so the leaves it met are no deeper than `codeMax`. -/

namespace Sys2Proof.Machine

theorem leafDepths_leaf {node : List Node} {n : NodeIdx} (hn : n.toNat ≤ 256) (fuel d : Nat) :
    leafDepths node fuel n d = [d] := by
  cases fuel with
  | zero => rfl
  | succ fuel => exact if_pos hn

theorem leafDepths_internal {node : List Node} {n : NodeIdx} {nd : Node} (hn : 256 < n.toNat)
    (hnd : node[n.toNat]? = some nd) (fuel d : Nat) :
    leafDepths node (fuel + 1) n d = leafDepths node fuel nd.c0 (d + 1) ++ leafDepths node fuel nd.c1 (d + 1) :=
  (if_neg (Nat.not_le.mpr hn)).trans (by rw [hnd])

/-- Where `ASSIGN` answers with `room` levels to go, no leaf below stands deeper than those levels allow (R9, R116). -/
theorem leafDepths_le_of_assign {node : List Node} {room d : Nat} {n : NodeIdx} {bits : BitVec 32}
    {code code' : List CodeEntry} (h : assign node room n bits d code = some code') (fuel : Nat) :
    ∀ x ∈ leafDepths node fuel n d, x ≤ d + room := by
  induction fuel generalizing room d n bits code code' with
  | zero => exact List.forall_mem_singleton.mpr (Nat.le_add_right d room)
  | succ fuel ih =>
    by_cases hn : n.toNat ≤ 256
    · rw [leafDepths_leaf hn]
      exact List.forall_mem_singleton.mpr (Nat.le_add_right d room)
    · obtain ⟨room', nd, code1, rfl, hnd, h0, h1⟩ := (assign_internal (by omega)).mp h
      rw [leafDepths_internal (by omega) hnd]
      intro x hx
      rcases List.mem_append.mp hx with hx | hx
      · have := ih h0 x hx
        omega
      · have := ih h1 x hx
        omega

/-- A `FREQ` of 257 entries whose tables are built is in the range of R9. -/
theorem freqInRange_of_buildTables {freq : List Freq} {t : Tables} (h : freq.length = Config.nsym)
    (ht : buildTables freq = some t) : FreqInRange freq :=
  have ⟨hsum, _, _, hassign⟩ := (buildTables_eq_some h).mp ht
  { length := h
    sum := hsum
    depth := fun d hd => (leafDepths_le_of_assign hassign Config.nnode d hd).trans_eq (Nat.zero_add _) }

/-- INIT on 257 entries from which no tables can be built (R9). -/
theorem execInit_eq_refused {s : State} (h : s.inst.freq.length = Config.nsym) (ht : buildTables s.inst.freq = none) :
    execInit s = .refused .unsupportedFreq :=
  (if_pos h).trans (by rw [ht])

/-- Settles O15: tables are built only from a `FREQ` in range, so out of range there are none and INIT refuses. -/
theorem initOutOfRangeIsRefused : Obligations.InitOutOfRangeIsRefused := by
  intro s hlen hout
  have hnone : buildTables s.inst.freq = none :=
    Option.eq_none_iff_forall_ne_some.mpr fun _ ht => hout (freqInRange_of_buildTables hlen ht)
  exact execInit_eq_refused hlen hnone

end Sys2Proof.Machine
end

section
/-! SUPPORT. The finished arena is a full tree (O20): the selection loop keeps "every internal node carries the sum of its
children's frequencies" beside the laws of `Forest` and `FreqOk`. -/

namespace Sys2Proof.Machine

/-- Every internal node made so far carries the sum of its children's frequencies (R114). -/
def SumsOk (pre : List Node) : Prop :=
  ∀ n, 257 ≤ n → n < pre.length → ∃ nd x y, pre[n]? = some nd ∧ pre[nd.c0.toNat]? = some x ∧
    pre[nd.c1.toNat]? = some y ∧ nd.f.toNat = x.f.toNat + y.f.toNat

/-- A merge keeps the sums: the new node's children are the two live nodes selected, whose frequencies it adds. -/
theorem SumsOk.merge {pre live live1 live2} {a b : LiveNode} (hs : SumsOk pre) (hq : FreqOk pre live)
    (hF : Forest pre live) (hl : pre.length ≤ 512) (h1 : takeMin live = some (a, live1))
    (h2 : takeMin live1 = some (b, live2)) : SumsOk (pre ++ [mergeNode a b]) := by
  have pa : (a :: b :: live2).Perm live := ((takeMin_perm h2).cons a).trans (takeMin_perm h1)
  have ha : a ∈ live := pa.mem_iff.mp (by simp)
  have hb : b ∈ live := pa.mem_iff.mp (by simp)
  have hold : ∀ {i nd}, pre[i]? = some nd → (pre ++ [mergeNode a b])[i]? = some nd := fun h => by
    rw [List.getElem?_append_left (List.getElem?_eq_some_iff.mp h).1, h]
  intro n hn hn'
  rw [List.length_append, List.length_singleton] at hn'
  rcases Nat.lt_succ_iff_lt_or_eq.mp hn' with hlt | rfl
  · obtain ⟨nd, x, y, hnd, hx, hy, hf⟩ := hs n hn hlt
    exact ⟨nd, x, y, hold hnd, hold hx, hold hy, hf⟩
  · obtain ⟨x, hx, hxf⟩ := hq.freq a ha
    obtain ⟨y, hy, hyf⟩ := hq.freq b hb
    have ta : (mergeNode a b).c0.toNat = a.n := toNat_ofNat10 (by have := hF.lt ha; omega)
    have tb : (mergeNode a b).c1.toNat = b.n := toNat_ofNat10 (by have := hF.lt hb; omega)
    exact ⟨mergeNode a b, x, y, by simp, by rw [ta]; exact hold hx, by rw [tb]; exact hold hy,
      by rw [(hq.merge hF h1 h2).1, hxf, hyf]⟩

/-- The whole selection loop keeps the sums. -/
theorem mergeLoop_sumsOk (k : Nat) {pre live} (hs : SumsOk pre) (hq : FreqOk pre live) (hF : Forest pre live)
    (hl : live.length = k + 1) (hk : pre.length + k = 513) : SumsOk (pre ++ (mergeLoop k pre.length live).1) := by
  induction k generalizing pre live with
  | zero => simpa [mergeLoop] using hs
  | succ k ih =>
    obtain ⟨a, b, live1, live2, h1, h2, he⟩ := mergeLoop_succ (k := k) (nn := pre.length) (live := live) (by omega)
    have l1 := takeMin_length h1
    have l2 := takeMin_length h2
    have := ih (hs.merge hq hF (by omega) h1 h2) (hq.merge hF h1 h2).2 (hF.merge (by omega) h1 h2)
      (by simp; omega) (by simp; omega)
    rw [he]
    simpa using this

theorem builtNode_sumsOk {freq : List Freq} (h : freq.length = Config.nsym)
    (hsum : (freq.map BitVec.toNat).sum < 2 ^ 32) : SumsOk (builtNode freq) := by
  have hl : (leaves freq).length = 257 := by rw [leaves, List.length_map, h]; rfl
  have hstart : SumsOk (leaves freq) := fun n hn hn' => by omega
  have := mergeLoop_sumsOk 256 hstart (leaves_freqOk hsum) (leaves_forest h) (by rw [liveFrom_length, h]; rfl)
    (by rw [hl])
  rwa [hl] at this

/-- Every index below 512 is a child exactly once, and no other index is one (R25). -/
theorem Arena.count_children {node} (hA : Arena node) (i : Nat) :
    (childrenBelow node 513).count i = if i < 512 then 1 else 0 := by
  have hcount : (childrenBelow node 513).count i + [512].count i = (List.range 513).count i := by
    rw [← List.count_append, hA.perm.count_eq]
  rw [List.nodup_range.count, List.count_singleton] at hcount
  simp only [List.mem_range, beq_iff_eq] at hcount
  split at hcount <;> split at hcount <;> split <;> omega

theorem builtNode_fullTree {freq : List Freq} (h : freq.length = Config.nsym)
    (hsum : (freq.map BitVec.toNat).sum < 2 ^ 32) : FullTree (builtNode freq) 512 where
  length := builtNode_length h
  root := rfl
  children := (builtNode_arena h).count_children
  internal n h1 h2 := by
    have hn : (BitVec.ofNat 10 n).toNat = n := toNat_ofNat10 (by omega)
    have hlt : n < (builtNode freq).length := (Nat.lt_succ_of_le h2).trans_eq (builtNode_length h).symm
    obtain ⟨nd, x, y, hnd, hx, hy, hf⟩ := builtNode_sumsOk h hsum n h1 hlt
    obtain ⟨nd', hnd', hch⟩ := (builtNode_arena h).child (n := BitVec.ofNat 10 n) (by omega) (by omega)
    rw [hn] at hnd' hch
    cases hnd.symm.trans hnd'
    exact ⟨nd, x, y, hnd, (hch false).1, (hch true).1, (hch false).2, (hch true).2, hx, hy, hf⟩

/-- Settles O20: `READY = 1` says that the tables are those built from `FREQ`, and what is built is a full tree. -/
theorem readyTreeIsFull : Obligations.ReadyTreeIsFull := by
  intro s hinv hready
  obtain ⟨hlen, hbuilt⟩ := hinv.built hready
  obtain ⟨hsum, hnode, hroot, -⟩ := (buildTables_eq_some hlen).mp hbuilt
  dsimp only at hnode hroot
  rw [hnode, hroot]
  exact builtNode_fullTree hlen hsum

end Sys2Proof.Machine
end

section
/-! SUPPORT. What a step can do, said once, and what the commands and code words leave alone (R65). -/

namespace Sys2Proof.Machine

theorem hostInput_eq_next {bs : List Byte} {s t : State} :
    hostInput bs s = .next t ↔ fits bs.length s.inst.inMax = true ∧ t = hostWriteIn bs s := by
  unfold hostInput
  split <;> simp [*, eq_comm]

/-- What a step can do when it answers a next state: an idle CORE rests, is reset, has `IN` written or runs a command (R227,
R229); a decoding in progress takes a code word or ends with the input (log 1). -/
theorem step_eq_next {s t : State} (h : step s = .next t) :
    (s.phase = .idle ∧ s.host = [] ∧ t = s) ∨
    (s.phase = .idle ∧ ∃ rest, s.host = .reset :: rest ∧ t = hostReset (s.withHost rest)) ∨
    (s.phase = .idle ∧ ∃ bs rest, s.host = .writeIn bs :: rest ∧ fits bs.length s.inst.inMax = true ∧
      t = hostWriteIn bs (s.withHost rest)) ∨
    (s.phase = .idle ∧ ∃ c rest i, s.host = .writeCmd c :: rest ∧ decodeCommand c = .ok i ∧
      exec i (s.withHost rest) = .next t) ∨
    (s.phase = .decoding ∧ ∃ bits rest i, s.remainingBits = some bits ∧ decodeCodeWord bits = .ok (i, rest) ∧
      exec i s = .next t) ∨
    (s.phase = .decoding ∧ ∃ bits, s.remainingBits = some bits ∧ endOfInput (decodeBits bits s) = .next t) := by
  unfold step at h
  split at h
  case h_1 idle queue =>
    cases h
    exact .inl ⟨idle, queue, rfl⟩
  case h_2 rest idle queue =>
    cases h
    exact .inr (.inl ⟨idle, rest, queue, rfl⟩)
  case h_3 bs rest idle queue =>
    rw [hostInput_eq_next] at h
    obtain ⟨room, eq⟩ := h
    exact .inr (.inr (.inl ⟨idle, bs, rest, queue, room, eq⟩))
  case h_4 c rest idle queue =>
    split at h
    · rename_i i decoded
      exact .inr (.inr (.inr (.inl ⟨idle, c, rest, i, queue, decoded, h⟩)))
    · cases h
  case h_5 decoding =>
    split at h
    · cases h
    · rename_i bits fetched
      split at h
      · rename_i i rest decoded
        exact .inr (.inr (.inr (.inr (.inl ⟨decoding, bits, rest, i, fetched, decoded, h⟩))))
      · exact .inr (.inr (.inr (.inr (.inr ⟨decoding, bits, fetched, h⟩))))

/-- The decoder of `CMD` answers the three commands only (R80). -/
theorem decodeCommand_eq_ok {c : CmdWord} {i : Instr} (h : decodeCommand c = .ok i) :
    (c = 1 ∧ i = .init) ∨ i = .compress ∨ i = .decompress := by
  have hc : c = 0 ∨ c = 1 ∨ c = 2 ∨ c = 3 := by
    clear h
    revert c
    decide
  rcases hc with rfl | rfl | rfl | rfl
  · cases (rfl : decodeCommand 0 = .error .reservedCommand).symm.trans h
  · cases (rfl : decodeCommand 1 = .ok .init).symm.trans h
    exact .inl ⟨rfl, rfl⟩
  · cases (rfl : decodeCommand 2 = .ok .compress).symm.trans h
    exact .inr (.inl rfl)
  · cases (rfl : decodeCommand 3 = .ok .decompress).symm.trans h
    exact .inr (.inr rfl)

/-- The code rows stand in the order of the instructions, behind the three commands (R97, R99). Piece by piece, as the table
is written. -/
theorem codeRows_ctorIdx : codeRows.map (fun r => r.instr.ctorIdx) = List.range' 3 257 := by
  have h0 : codeRows0.map (fun r => r.instr.ctorIdx) = List.range' 3 32 := rfl
  have h1 : codeRows1.map (fun r => r.instr.ctorIdx) = List.range' 35 32 := rfl
  have h2 : codeRows2.map (fun r => r.instr.ctorIdx) = List.range' 67 32 := rfl
  have h3 : codeRows3.map (fun r => r.instr.ctorIdx) = List.range' 99 32 := rfl
  have h4 : codeRows4.map (fun r => r.instr.ctorIdx) = List.range' 131 32 := rfl
  have h5 : codeRows5.map (fun r => r.instr.ctorIdx) = List.range' 163 32 := rfl
  have h6 : codeRows6.map (fun r => r.instr.ctorIdx) = List.range' 195 32 := rfl
  have h7 : codeRows7.map (fun r => r.instr.ctorIdx) = List.range' 227 32 := rfl
  simp only [codeRows, List.map_append, h0, h1, h2, h3, h4, h5, h6, h7]
  rw [show 257 = 32 + 32 + 32 + 32 + 32 + 32 + 32 + 32 + 1 from rfl]
  simp only [← List.range'_append_1]
  rfl

theorem allRows_ctorIdx : allRows.map (fun r => r.instr.ctorIdx) = List.range' 0 260 := by
  rw [allRows, List.map_append, codeRows_ctorIdx, show 260 = 3 + 257 from rfl, ← List.range'_append_1]
  rfl

/-- No two rows have the same instruction (R97). -/
theorem allRows_nodup : (allRows.map Row.instr).Nodup := by
  refine List.Nodup.of_map Instr.ctorIdx ?_
  rw [List.map_map, show Instr.ctorIdx ∘ Row.instr = fun r => r.instr.ctorIdx from rfl, allRows_ctorIdx]
  exact List.nodup_range'

/-- A row of the code table is no command's, and it is the row its instruction is encoded with (R97). -/
theorem encodeRow_of_mem_codeRows {r : Row} (hr : r ∈ codeRows) :
    r.instr.isCommand = false ∧ encodeRow r.instr = r := by
  have hmem : r ∈ allRows := List.mem_append_right _ hr
  have hinj {r' : Row} (hr' : r' ∈ allRows) (h : r'.instr = r.instr) : r' = r :=
    List.inj_on_of_nodup_map allRows_nodup hr' hmem h
  constructor
  · refine Bool.eq_false_iff.mpr fun hcmd => ?_
    obtain ⟨r', hr', he⟩ := List.any_eq_true.mp hcmd
    cases hinj (List.mem_append_left _ hr') (eq_of_beq he)
    exact List.disjoint_of_nodup_append (List.Nodup.of_map _ allRows_nodup) hr' hr
  · obtain ⟨r', hfind⟩ := Option.isSome_iff_exists.mp
      ((List.find?_isSome (p := fun x : Row => x.instr == r.instr)).mpr ⟨r, hmem, beq_self_eq_true _⟩)
    have he := List.find?_some (p := fun x : Row => x.instr == r.instr) hfind
    rw [encodeRow, hfind, Option.getD_some]
    exact hinj (List.mem_of_find?_eq_some hfind) (eq_of_beq he)

/-- The code word decoded stands at the front of the bits (R90). -/
theorem decodeCodeWord_eq_ok {bits rest : List Bool} {i : Instr} (h : decodeCodeWord bits = .ok (i, rest)) :
    i.isCommand = false ∧ bits = encodeBits i ++ rest := by
  unfold decodeCodeWord at h
  split at h
  · rename_i p hp
    cases h
    obtain ⟨r, hr, rfl, hbits⟩ := firstMatch_eq_some hp
    obtain ⟨hcmd, hrow⟩ := encodeRow_of_mem_codeRows hr
    exact ⟨hcmd, by rw [encodeBits, hrow, hbits]⟩
  · cases h

/-! ## Frames -/

theorem sameTablesAndInput.refl (s : State) : sameTablesAndInput s s := ⟨rfl, rfl, rfl, rfl, rfl, rfl, rfl⟩

theorem EncoderFrame.phase_eq {s t : State} (h : EncoderFrame s t) : t.phase = s.phase := by
  rw [show t = _ from h]

theorem EncoderFrame.sameTablesAndInput {s t : State} (h : EncoderFrame s t) : sameTablesAndInput s t := by
  rw [show t = _ from h]
  exact .refl _

theorem DecoderFrame.sameTablesAndInput {s t : State} (h : DecoderFrame s t) : sameTablesAndInput s t := by
  rw [show t = _ from h]
  exact .refl _

/-- The four parts of COMPRESS together write the encoder's registers and `OUT` only (R140). -/
theorem compressParts_encoderFrame {s s1 s2 s3 : State} {bs : List Byte} (h1 : putAll bs (startEncoder s) = .next s1)
    (h2 : put Config.eos.toNat s1 = .next s2) (h3 : padLast s2 = .next s3) : EncoderFrame s s3 :=
  (startEncoder_encoderFrame s).trans <| (putAll_encoderFrame h1).trans <|
    (put_encoderFrame h2).trans (padLast_encoderFrame h3)

theorem execCompress_frame {s t : State} (h : execCompress s = .next t) :
    sameTablesAndInput s t ∧ t.phase = s.phase := by
  rcases execCompress_eq_next h with ⟨-, rfl⟩ | ⟨-, bs, s1, s2, s3, -, h1, h2, h3, rfl⟩
  · exact ⟨.refl s, rfl⟩
  · have hf := compressParts_encoderFrame h1 h2 h3
    exact ⟨hf.sameTablesAndInput, hf.phase_eq⟩

theorem execDecompress_frame {s t : State} (h : execDecompress s = .next t) : DecoderFrame s t := by
  rcases execDecompress_eq_next h with ⟨-, rfl⟩ | ⟨-, bits, -, h⟩
  · rfl
  · exact DecoderFrame.trans (t := startDecoder s) rfl (endOfInput_frame h)

theorem exec_codeWord_frame {i : Instr} {s t : State} (hi : i.isCommand = false) (h : exec i s = .next t) :
    DecoderFrame s t :=
  consumeCodeWord_frame ((exec_codeWord i s hi).symm.trans h)

/-- COMPRESS and DECOMPRESS never write the tables, `READY` or the input (R65). -/
theorem exec_sameTablesAndInput {i : Instr} {s t : State} (hi : i = .compress ∨ i = .decompress)
    (h : exec i s = .next t) : sameTablesAndInput s t := by
  rcases hi with rfl | rfl
  · exact (execCompress_frame h).1
  · exact (execDecompress_frame h).sameTablesAndInput

/-! ## Reset, the host's write, and who writes the tables -/

/-- Settles O1: each value is the one `State.reset` writes. -/
theorem resetValues : Obligations.ResetValues := ⟨rfl, rfl, rfl, rfl, rfl, rfl, rfl⟩

/-- Settles O49: the tables have their sizes, `READY` is 0, both buffers are empty and nothing is being decoded. -/
theorem invariantAtReset : Obligations.InvariantAtReset where
  nodeLength := List.length_replicate
  codeLength := List.length_replicate
  built := nofun
  inFilled := Memory.filled_nil
  outFilled := Memory.filled_nil
  inFits := fits_zero _
  outFits := fits_zero _
  decoding := nofun

theorem step_writeIn {s : State} {bs : List Byte} {rest : List HostAction} (idle : s.phase = .idle)
    (queue : s.host = .writeIn bs :: rest) : step s = hostInput bs (s.withHost rest) := by
  unfold step
  rw [idle, queue]

/-- Settles O3: the step is the host's write of `IN`, whose bytes then read back. -/
theorem hostWriteInStep : Obligations.HostWriteInStep := by
  intro s bs rest idle queue
  rw [step_writeIn idle queue, hostInput, withHost_inst]
  refine ⟨fun room => ?_, fun full => ?_⟩
  · rw [if_pos room]
    refine ⟨_, rfl, rfl, fun i _ => ?_, Memory.bytes_ofBytes bs, rfl⟩
    simpa using Memory.read_ofBytes 0 bs i
  · rw [full]
    rfl

/-- Settles O46: by the cases of a step; but for a reset and INIT each of them leaves the tables and `READY` alone. -/
theorem onlyInitAndResetWriteTheTables : Obligations.OnlyInitAndResetWriteTheTables := by
  intro s t h
  have keeps (hf : sameTablesAndInput s t) :
      t.inst = s.inst ∧ (t.node = s.node ∧ t.root = s.root ∧ t.code = s.code ∧ t.ready = s.ready) :=
    have ⟨hinst, hnode, hroot, hcode, hready, _, _⟩ := hf
    ⟨hinst, hnode, hroot, hcode, hready⟩
  rcases step_eq_next h with ⟨-, -, rfl⟩ | ⟨idle, rest, queue, rfl⟩ | ⟨-, bs, rest, -, -, rfl⟩ |
    ⟨idle, c, rest, i, queue, decoded, run⟩ | ⟨-, bits, rest, i, -, decoded, run⟩ | ⟨-, bits, -, run⟩
  · exact ⟨rfl, .inl ⟨rfl, rfl, rfl, rfl⟩⟩
  · exact ⟨hostReset_inst _, .inr ⟨idle, rest, .inl queue⟩⟩
  · exact ⟨rfl, .inl ⟨rfl, rfl, rfl, rfl⟩⟩
  · rcases decodeCommand_eq_ok decoded with ⟨rfl, rfl⟩ | hi
    · refine ⟨?_, .inr ⟨idle, rest, .inr queue⟩⟩
      rcases execInit_eq_next run with ⟨-, rfl⟩ | ⟨-, x, -, rfl⟩ <;> rfl
    · have hf : sameTablesAndInput (s.withHost rest) t := exec_sameTablesAndInput hi run
      exact (keeps hf).imp_right .inl
  · have hi := (decodeCodeWord_eq_ok decoded).1
    exact (keeps (exec_codeWord_frame hi run).sameTablesAndInput).imp_right .inl
  · exact (keeps (endOfInput_frame run).sameTablesAndInput).imp_right .inl

end Sys2Proof.Machine
end

section
/-! SUPPORT. Every step keeps the invariant (O50). What a command leaves alone comes from the frames; what is new is that
`OUT` stays filled and within its capacity, and that a decoder that goes on stands on an internal node. -/

namespace Sys2Proof.Machine

/-- What leaves the tables and the input alone keeps the invariant when `OUT` and the decoding are in order after it. -/
theorem State.Inv.of_frame {s t : State} (h : s.Inv) (hf : sameTablesAndInput s t) (hout : OutOk t)
    (hdec : t.phase = .decoding → DecodingOk t) : t.Inv := by
  obtain ⟨hinst, hnode, hroot, hcode, hready, hinp, hinLen⟩ := hf
  exact
    { nodeLength := by rw [hnode, h.nodeLength]
      codeLength := by rw [hcode, h.codeLength]
      built := by rw [hinst, hnode, hroot, hcode, hready]; exact h.built
      inFilled := by rw [hinp, hinLen]; exact h.inFilled
      outFilled := hout.1
      inFits := by rw [hinst, hinLen]; exact h.inFits
      outFits := hout.2
      decoding := hdec }

theorem State.Inv.outOk {s : State} (h : s.Inv) : OutOk s := ⟨h.outFilled, h.outFits⟩

theorem raise_outOk (c : Result) (s : State) : OutOk (raise c s) := ⟨Memory.filled_nil, fits_zero _⟩

theorem startDecoder_outOk (s : State) : OutOk (startDecoder s) := ⟨Memory.filled_nil, fits_zero _⟩

theorem not_decoding_of_idle {s : State} {P : Prop} (h : s.phase = .idle) : s.phase = .decoding → P := by
  rw [h]
  nofun

/-! ## The host's moves and the commands -/

theorem withHost_inv {s : State} (h : s.Inv) (idle : s.phase = .idle) (rest : List HostAction) :
    (s.withHost rest).Inv :=
  h.of_frame (.refl s) h.outOk (not_decoding_of_idle (s := s.withHost rest) idle)

theorem hostReset_inv (s : State) : (hostReset s).Inv where
  nodeLength := by simp [hostReset]
  codeLength := by simp [hostReset]
  built := nofun
  inFilled := Memory.filled_nil
  outFilled := Memory.filled_nil
  inFits := fits_zero _
  outFits := fits_zero _
  decoding := nofun

theorem hostWriteIn_inv {s : State} (h : s.Inv) (idle : s.phase = .idle) {bs : List Byte}
    (room : fits bs.length s.inst.inMax = true) : (hostWriteIn bs s).Inv :=
  { h with
    inFilled := Memory.filled_ofBytes bs
    inFits := room
    decoding := not_decoding_of_idle (s := hostWriteIn bs s) idle }

/-- INIT keeps the invariant: it clears `READY`, or the tables it loads are those built from `FREQ` (R117, R119). -/
theorem execInit_inv {s t : State} (h : s.Inv) (idle : s.phase = .idle) (run : execInit s = .next t) : t.Inv := by
  rcases execInit_eq_next run with ⟨-, rfl⟩ | ⟨hlen, x, hx, rfl⟩
  · exact
      { h with
        built := nofun
        outFilled := Memory.filled_nil
        outFits := fits_zero _
        decoding := not_decoding_of_idle (s := raise .configurationError { s with ready := false }) idle }
  · obtain ⟨hnode, hcode⟩ := buildTables_lengths hlen hx
    exact
      { h with
        nodeLength := hnode
        codeLength := hcode
        built := fun _ => ⟨hlen, hx⟩
        decoding := not_decoding_of_idle (s := releaseBuilder (succeed (loadTables x s))) idle }

theorem execCompress_inv {s t : State} (h : s.Inv) (idle : s.phase = .idle)
    (run : execCompress s = .next t) : t.Inv := by
  obtain ⟨hframe, hphase⟩ := execCompress_frame run
  refine h.of_frame hframe ?_ (not_decoding_of_idle (hphase.trans idle))
  rcases execCompress_eq_next run with ⟨-, rfl⟩ | ⟨-, bs, s1, s2, s3, -, h1, h2, h3, rfl⟩
  · exact raise_outOk _ s
  · exact show OutOk s3 from padLast_outOk h3 (put_outOk h2 (putAll_outOk h1 (startEncoder_outOk s)))

/-! ## The walk of the decoder -/

/-- What one turn of the loop keeps while it goes on, the whole loop keeps. -/
theorem decodeBits_going_keeps {P : State → Prop} (hP : ∀ b s t, P s → decodeBit b s = .going t → P t) {bs : List Bool}
    {s t : State} (hs : P s) (h : decodeBits bs s = .going t) : P t := by
  induction bs generalizing s with
  | nil => cases h; exact hs
  | cons b bs ih =>
    rw [decodeBits] at h
    split at h
    · rename_i s' h1
      exact ih (hP b s s' hs h1) h
    · cases h

/-- A walk that ends has gone on up to the bit that ends it. -/
theorem decodeBits_ended {bs : List Bool} {s : State} {o : Host.Outcome State Fault Refusal}
    (h : decodeBits bs s = .ended o) : ∃ p b s', decodeBits p s = .going s' ∧ decodeBit b s' = .ended o := by
  induction bs generalizing s with
  | nil => cases h
  | cons b bs ih =>
    rw [decodeBits] at h
    split at h
    · rename_i s1 h1
      obtain ⟨p, c, s', hp, hc⟩ := ih h
      exact ⟨b :: p, c, s', by rw [decodeBits, h1]; exact hp, hc⟩
    · rename_i o' h1
      cases h
      exact ⟨[], b, s, rfl, h1⟩

theorem decodeBit_going_outOk (b : Bool) (s t : State) (hs : OutOk s) (h : decodeBit b s = .going t) : OutOk t := by
  obtain ⟨nd, -, -, -, ⟨-, room, rfl⟩ | ⟨-, rfl⟩⟩ := decodeBit_going h
  · exact ⟨Memory.filled_append hs.1 _, room⟩
  · exact hs

theorem decodeBits_going_outOk {bs : List Bool} {s t : State} (hs : OutOk s) (h : decodeBits bs s = .going t) :
    OutOk t :=
  decodeBits_going_keeps decodeBit_going_outOk hs h

/-- The command that a walk ends leaves `OUT` in order and no decoding in progress. -/
theorem decodeBits_ended_outOk {bs : List Bool} {s t : State} (hs : OutOk s)
    (h : decodeBits bs s = .ended (.next t)) : OutOk t ∧ t.phase = .idle := by
  obtain ⟨p, b, s', hp, hb⟩ := decodeBits_ended h
  have hs' : OutOk s' := decodeBits_going_outOk hs hp
  rcases decodeBit_ended hb with ⟨-, h⟩ | ⟨nd, -, ⟨-, h⟩ | ⟨-, h⟩ | ⟨-, h⟩⟩ <;> cases h
  · exact ⟨raise_outOk _ _, rfl⟩
  · exact ⟨hs', rfl⟩

theorem endOfInput_outOk {bs : List Bool} {s t : State} (hs : OutOk s)
    (h : endOfInput (decodeBits bs s) = .next t) : OutOk t ∧ t.phase = .idle := by
  unfold endOfInput at h
  split at h
  · cases h
    exact ⟨raise_outOk _ _, rfl⟩
  · rename_i o hw
    subst h
    exact decodeBits_ended_outOk hs hw

/-- Built tables, with the walk on an internal node (R163). -/
def OnInternal (s : State) : Prop := Tree s ∧ 257 ≤ s.cur.toNat ∧ s.cur.toNat ≤ 512

/-- A bit after which the walk goes on leads back to the root or to an internal node. -/
theorem decodeBit_going_onInternal (b : Bool) (s t : State) (hs : OnInternal s) (h : decodeBit b s = .going t) :
    OnInternal t := by
  obtain ⟨hT, h1, h2⟩ := hs
  obtain ⟨nd, hnd, -, -, hcase⟩ := decodeBit_going h
  obtain ⟨nd', hnd', hch⟩ := hT.code.arena.child h1 h2
  cases (show s.node[s.cur.toNat]? = some nd from hnd).symm.trans hnd'
  rcases hcase with ⟨-, -, rfl⟩ | ⟨hge, rfl⟩
  · have hroot : s.root.toNat = 512 := congrArg BitVec.toNat hT.root
    exact ⟨⟨hT.code, hT.root⟩, by simp [hroot], by simp [hroot]⟩
  · exact ⟨⟨hT.code, hT.root⟩, hge, ((hch b).1.trans_le h2).le⟩

theorem execDecompress_inv {s t : State} (h : s.Inv) (run : execDecompress s = .next t) : t.Inv := by
  have key : OutOk t ∧ t.phase = .idle := by
    rcases execDecompress_eq_next run with ⟨-, rfl⟩ | ⟨-, bits, -, hend⟩
    · exact ⟨raise_outOk _ _, rfl⟩
    · exact endOfInput_outOk (startDecoder_outOk s) hend
  exact h.of_frame (execDecompress_frame run).sameTablesAndInput key.1 (not_decoding_of_idle key.2)

/-- The bits not yet consumed, in number (R162). -/
theorem remainingBits_length {s : State} {bits : List Bool} (h : s.remainingBits = some bits) :
    bits.length = 8 * s.inLen - s.k := by
  obtain ⟨all, hall, rfl⟩ := Option.map_eq_some_iff.mp h
  obtain ⟨bs, hbs, rfl⟩ := Option.map_eq_some_iff.mp hall
  rw [List.length_drop, bytesBits_length, ((Memory.bytes_eq_some_iff _ _ _ _).mp hbs).1]

/-- A code word taken by a decoding in progress keeps the invariant: it is no longer than what is left of the input. -/
theorem exec_codeWord_inv {s t : State} {i : Instr} {bits rest : List Bool} (h : s.Inv)
    (decoding : s.phase = .decoding) (fetched : s.remainingBits = some bits)
    (decoded : decodeCodeWord bits = .ok (i, rest)) (run : exec i s = .next t) : t.Inv := by
  obtain ⟨hcmd, hbits⟩ := decodeCodeWord_eq_ok decoded
  have hframe := (exec_codeWord_frame hcmd run).sameTablesAndInput
  obtain ⟨hready, hinternal, hk⟩ := h.decoding decoding
  rw [exec_codeWord i s hcmd] at run
  rcases consumeCodeWord_eq_next run with ⟨hr, -⟩ | ⟨-, hgo | hend⟩
  · rw [hready] at hr
    cases hr
  · refine h.of_frame hframe (decodeBits_going_outOk h.outOk hgo) fun _ => ?_
    have ⟨_, hcur⟩ : OnInternal t :=
      decodeBits_going_keeps decodeBit_going_onInternal ⟨Tree.of_inv h hready, hinternal⟩ hgo
    obtain ⟨-, -, -, -, hr, -, hl⟩ := hframe
    refine ⟨hr.trans hready, hcur, ?_⟩
    have hlen := remainingBits_length fetched
    rw [hbits, List.length_append, encodeBits, Row.bits, bitsLsb_length] at hlen
    rw [decodeBits_going_k hgo, bitsLsb_length, hl]
    omega
  · obtain ⟨hout, hidle⟩ := decodeBits_ended_outOk h.outOk hend
    exact h.of_frame hframe hout (not_decoding_of_idle hidle)

/-- Settles O50: by the cases of a step. -/
theorem invariantKept : Obligations.InvariantKept := by
  intro s t h hstep
  rcases step_eq_next hstep with ⟨-, -, rfl⟩ | ⟨-, rest, -, rfl⟩ | ⟨idle, bs, rest, -, room, rfl⟩ |
    ⟨idle, c, rest, i, -, decoded, run⟩ | ⟨decoding, bits, rest, i, fetched, decoded, run⟩ | ⟨-, bits, -, run⟩
  · exact h
  · exact hostReset_inv _
  · exact hostWriteIn_inv (withHost_inv h idle rest) idle room
  · have h' := withHost_inv h idle rest
    rcases decodeCommand_eq_ok decoded with ⟨-, rfl⟩ | rfl | rfl
    · exact execInit_inv h' idle run
    · exact execCompress_inv h' idle run
    · exact execDecompress_inv h' run
  · exact exec_codeWord_inv h decoding fetched decoded run
  · obtain ⟨hout, hidle⟩ := endOfInput_outOk h.outOk run
    exact h.of_frame (endOfInput_frame run).sameTablesAndInput hout (not_decoding_of_idle hidle)

end Sys2Proof.Machine
end

section
/-! SUPPORT. The code of a finished arena (O21). A node is a child once, so it has one path from the root, and one depth.
The Kraft sum telescopes over the arena: a node is worth as much as its two children, every node but the root is a child
once, so the leaves together are worth the root. -/

namespace Sys2Proof.Machine

/-! ## One path to each node -/

theorem branch_mem (b : Bool) (nd : Node) : (branch b nd).toNat ∈ [nd.c0.toNat, nd.c1.toNat] := by
  cases b <;> simp [branch]

/-- The children of the internal nodes, all different (R25). -/
theorem Arena.nodup_children {node} (hA : Arena node) : (childrenBelow node 513).Nodup :=
  (hA.perm.nodup_iff.mpr List.nodup_range).of_append_left

/-- A node is the child of one node, on one side. -/
theorem Arena.parent_inj {node} (hA : Arena node) {m n : Nat} {x y : Node} {a b : Bool} (hm : 257 ≤ m) (hn : 257 ≤ n)
    (hx : node[m]? = some x) (hy : node[n]? = some y) (h : branch a x = branch b y) : m = n ∧ a = b := by
  have hnd := hA.nodup_children
  rw [childrenBelow, List.take_of_length_le hA.length.le, List.nodup_flatMap] at hnd
  obtain ⟨hself, hpair⟩ := hnd
  obtain ⟨i, rfl⟩ := Nat.exists_eq_add_of_le hm
  obtain ⟨j, rfl⟩ := Nat.exists_eq_add_of_le hn
  rw [← List.getElem?_drop] at hx hy
  obtain ⟨hi, rfl⟩ := List.getElem?_eq_some_iff.mp hx
  obtain ⟨hj, rfl⟩ := List.getElem?_eq_some_iff.mp hy
  have hdisj : ∀ (i j : Nat) (hi : i < (node.drop 257).length) (hj : j < (node.drop 257).length) (a b : Bool), i < j →
      branch a (node.drop 257)[i] ≠ branch b (node.drop 257)[j] := fun i j hi hj a b hij he =>
    (List.pairwise_iff_getElem.mp hpair i j hi hj hij) (branch_mem a _) (by rw [he]; exact branch_mem b _)
  rcases Nat.lt_trichotomy i j with hij | rfl | hij
  · exact absurd h (hdisj i j hi hj a b hij)
  · refine ⟨rfl, ?_⟩
    have hne : (node.drop 257)[i].c0.toNat ≠ (node.drop 257)[i].c1.toNat := by
      simpa using hself _ (List.getElem_mem hi)
    cases a <;> cases b <;> simp only [branch] at h
    · rfl
    · exact absurd (congrArg BitVec.toNat h) hne
    · exact absurd (congrArg BitVec.toNat h).symm hne
    · rfl
  · exact absurd h.symm (hdisj j i hj hi b a hij)

/-- One edge more on a path (R85). -/
theorem follow_snoc {node : List Node} {p : List Bool} {b : Bool} {n k : NodeIdx} {nd : Node}
    (hk : follow node p n = some k) (hnd : node[k.toNat]? = some nd) (hb : branch b nd ≠ Config.null) :
    follow node (p ++ [b]) n = some (branch b nd) := by
  rw [follow_append, hk, Option.bind_some, follow, hnd]
  exact if_neg hb

/-- The last edge of a path (R85). -/
theorem follow_snoc_cases {node : List Node} {p : List Bool} {b : Bool} {n m : NodeIdx}
    (h : follow node (p ++ [b]) n = some m) : ∃ k nd, follow node p n = some k ∧ node[k.toNat]? = some nd ∧
      branch b nd ≠ Config.null ∧ branch b nd = m := by
  rw [follow_append, Option.bind_eq_some_iff] at h
  obtain ⟨k, hk, h⟩ := h
  simp only [follow] at h
  split at h
  · cases h
  · rename_i nd hnd
    split at h
    · cases h
    · rename_i hb
      exact ⟨k, nd, hk, hnd, hb, Option.some.inj h⟩

/-- An edge leaves an internal node, for an older one. -/
theorem Arena.edge {node} (hA : Arena node) {n : NodeIdx} {nd : Node} {b : Bool} (hn : n.toNat ≤ 512)
    (hnd : node[n.toNat]? = some nd) (hb : branch b nd ≠ Config.null) :
    257 ≤ n.toNat ∧ (branch b nd).toNat < n.toNat := by
  by_cases hleaf : n.toNat ≤ 256
  · obtain ⟨f, hf⟩ := hA.leaf n.toNat hleaf
    cases hnd.symm.trans hf
    cases b <;> exact absurd rfl hb
  · obtain ⟨nd', hnd', hch⟩ := hA.child (not_le.mp hleaf) hn
    cases hnd.symm.trans hnd'
    exact ⟨not_le.mp hleaf, (hch b).1⟩

/-- A path from the root stays in the arena. -/
theorem Arena.follow_le {node} (hA : Arena node) {p : List Bool} {n : NodeIdx} (h : follow node p 512#10 = some n) :
    n.toNat ≤ 512 := by
  induction p using List.reverseRecOn generalizing n with
  | nil => cases h; decide
  | append_singleton p b ih =>
    obtain ⟨k, nd, hk, hnd, hnull, rfl⟩ := follow_snoc_cases h
    exact ((hA.edge (ih hk) hnd hnull).2.trans_le (ih hk)).le

/-- Only the empty path leads from the root to the root. -/
theorem Arena.follow_ne_root {node} (hA : Arena node) (p : List Bool) (b : Bool) :
    follow node (p ++ [b]) 512#10 ≠ some 512#10 := by
  intro h
  obtain ⟨k, nd, hk, hnd, hnull, hb⟩ := follow_snoc_cases h
  have hlt := (hA.edge (hA.follow_le hk) hnd hnull).2
  rw [hb] at hlt
  exact absurd (hA.follow_le hk) (not_le.mpr hlt)

/-- There is one path to each node (R27): the last edge is the node's only one, and so on up to the root. -/
theorem Arena.path_unique {node} (hA : Arena node) {p q : List Bool} {n : NodeIdx}
    (hp : follow node p 512#10 = some n) (hq : follow node q 512#10 = some n) : p = q := by
  induction p using List.reverseRecOn generalizing q n with
  | nil =>
    cases hp
    rcases List.eq_nil_or_concat q with rfl | ⟨q, c, rfl⟩
    · rfl
    · exact absurd (List.concat_eq_append ▸ hq) (hA.follow_ne_root q c)
  | append_singleton p b ih =>
    rcases List.eq_nil_or_concat q with rfl | ⟨q, c, rfl⟩
    · cases hq
      exact absurd hp (hA.follow_ne_root p b)
    · rw [List.concat_eq_append] at hq ⊢
      obtain ⟨k, x, hk, hx, hxnull, hxb⟩ := follow_snoc_cases hp
      obtain ⟨l, y, hl, hy, hynull, hyc⟩ := follow_snoc_cases hq
      obtain ⟨hkl, rfl⟩ := hA.parent_inj (hA.edge (hA.follow_le hk) hx hxnull).1
        (hA.edge (hA.follow_le hl) hy hynull).1 hx hy (hxb.trans hyc.symm)
      cases toNat_inj hkl
      rw [ih hk hl]

/-! ## Depths and the Kraft sum -/

/-- `d` is the depth of each node: the number of edges from the root. -/
def IsDepth (node : List Node) (d : Nat → Nat) : Prop :=
  ∀ (p : List Bool) (n : NodeIdx), follow node p 512#10 = some n → p.length = d n.toNat

theorem Arena.exists_depth {node} (hA : Arena node) : ∃ d, IsDepth node d := by
  choose path hpath using fun (n : NodeIdx) (hn : n.toNat ≤ 512) => hA.reach (512 - n.toNat) n.toNat (by omega)
  refine ⟨fun i => if h : (BitVec.ofNat 10 i).toNat ≤ 512 then (path _ h).length else 0, fun p n hp => ?_⟩
  have hn := hA.follow_le hp
  have := hpath n hn
  simp only [BitVec.ofNat_toNat, BitVec.setWidth_eq] at this ⊢
  rw [dif_pos hn, hA.path_unique hp this]

/-- A child is one level below its parent. -/
theorem IsDepth.child {node d} (hd : IsDepth node d) (hA : Arena node) {n : Nat} {nd : Node} (h1 : 257 ≤ n)
    (h2 : n ≤ 512) (hnd : node[n]? = some nd) (b : Bool) :
    (branch b nd).toNat < n ∧ d (branch b nd).toNat = d n + 1 := by
  have hn : (BitVec.ofNat 10 n).toNat = n := toNat_ofNat10 (by omega)
  obtain ⟨nd', hnd', hch⟩ := hA.child (n := BitVec.ofNat 10 n) (by omega) (by omega)
  rw [hn] at hnd' hch
  cases hnd.symm.trans hnd'
  obtain ⟨p, hp⟩ := hA.reach (512 - n) n (by omega)
  have hpb : follow node (p ++ [b]) 512#10 = some (branch b nd) :=
    follow_snoc hp (by rw [hn]; exact hnd) (hch b).2
  have e := hd _ _ hp
  rw [hn] at e
  exact ⟨(hch b).1, by rw [← hd _ _ hpb, ← e, List.length_append, List.length_singleton]⟩

/-- Where no leaf is deeper than `m`, no node is. -/
theorem IsDepth.le_of_leaves {node d m} (hd : IsDepth node d) (hA : Arena node) (hleaf : ∀ n, n ≤ 256 → d n ≤ m)
    (n : Nat) (hn : n ≤ 512) : d n ≤ m := by
  induction n using Nat.strong_induction_on with
  | _ n ih =>
    by_cases hl : n ≤ 256
    · exact hleaf n hl
    · obtain ⟨nd, hnd, -, -⟩ := hA.older n (by omega) hn
      obtain ⟨hlt, hdep⟩ := hd.child hA (by omega) hn hnd false
      have := ih _ hlt (by omega)
      omega

/-- A node at depth `d` of a tree of `m` levels is worth `2^(m - d)`: as much as its two children. -/
theorem IsDepth.worth_children {node d m} (hd : IsDepth node d) (hA : Arena node) (hle : ∀ n, n ≤ 512 → d n ≤ m)
    {n : Nat} {nd : Node} (h1 : 257 ≤ n) (h2 : n ≤ 512) (hnd : node[n]? = some nd) :
    2 ^ (m - d nd.c0.toNat) + 2 ^ (m - d nd.c1.toNat) = 2 ^ (m - d n) := by
  have hc0 : nd.c0.toNat < n ∧ d nd.c0.toNat = d n + 1 := hd.child hA h1 h2 hnd false
  have hc1 : nd.c1.toNat < n ∧ d nd.c1.toNat = d n + 1 := hd.child hA h1 h2 hnd true
  have hdeep := hle _ (hc0.1.le.trans h2)
  rw [hc0.2] at hdeep
  rw [hc0.2, hc1.2, ← Nat.two_mul, ← Nat.pow_succ', show (m - (d n + 1)).succ = m - d n by omega]

/-- Where each internal node is worth its two children, the leaves together are worth the root. -/
theorem Arena.sum_leaves {node} (hA : Arena node) {w : Nat → Nat}
    (hw : ∀ n nd, 257 ≤ n → n ≤ 512 → node[n]? = some nd → w nd.c0.toNat + w nd.c1.toNat = w n) : ((List.range 257).map w).sum = w 512 := by
  have hchildren : ((childrenBelow node 513).map w).sum = (((List.range 256).map (257 + ·)).map w).sum := by
    rw [childrenBelow, List.take_of_length_le hA.length.le, List.map_flatMap, List.flatMap_def, List.sum_flatten,
      List.map_map]
    congr 1
    refine List.ext_getElem (by simp [hA.length]) fun i hi hi' => ?_
    have hlt : 257 + i < node.length := by
      rw [List.length_map, List.length_drop] at hi
      omega
    have := hw (257 + i) node[257 + i] (by omega) (by rw [hA.length] at hlt; omega) (List.getElem?_eq_getElem hlt)
    simpa using this
  have htotal : ((childrenBelow node 513 ++ [512]).map w).sum = ((List.range (257 + 256)).map w).sum :=
    (hA.perm.map w).sum_eq
  rw [List.range_add, List.map_append, List.map_append, List.sum_append, List.sum_append, hchildren, List.map_singleton,
    List.sum_singleton] at htotal
  omega

theorem entryOf_len {p : List Bool} (h : p.length ≤ 32) : (entryOf p).len.toNat = p.length :=
  (BitVec.toNat_ofNat _ _).trans (Nat.mod_eq_of_lt (by omega))

theorem entryOf_bits_lt {p : List Bool} (h : p.length ≤ 32) : (entryOf p).bits.toNat < 2 ^ (entryOf p).len.toNat := by
  rw [entryOf_len h]
  exact (BitVec.toNat_ofNat _ _).trans_le (Nat.mod_le _ _) |>.trans_lt (bitsValue_lt p)

/-- The length of a symbol's code word is the depth of its leaf, and fits (R27, R116). -/
theorem CodeOk.len_eq_depth {node code d} (h : CodeOk node code) (hd : IsDepth node d) {s : Nat} (hs : s ≤ 256) :
    d s ≤ 32 ∧ ∃ c, code[s]? = some c ∧ c.len.toNat = d s := by
  obtain ⟨p, hp, -, hle, hc⟩ := h.path s hs
  have e := hd p _ hp
  rw [toNat_ofNat10 (by omega)] at e
  exact ⟨e ▸ hle, entryOf p, hc, (entryOf_len hle).trans e⟩

/-- The Kraft sum of a code made of the paths of a full tree is 1 (R27): it is what the leaves are worth, so what
the root is. -/
theorem CodeOk.kraftSum_eq {node code} (h : CodeOk node code) (hlen : code.length = Config.nsym) :
    kraftSum code = 2 ^ Config.codeMax := by
  obtain ⟨d, hd⟩ := h.arena.exists_depth
  have hle := hd.le_of_leaves h.arena fun s hs => (h.len_eq_depth hd hs).1
  have hmap : code.map (fun c => 2 ^ (Config.codeMax - c.len.toNat)) =
      (List.range 257).map fun s => 2 ^ (32 - d s) := by
    refine List.ext_getElem (by rw [List.length_map, hlen, List.length_map, List.length_range]; rfl) fun s hs hs' => ?_
    obtain ⟨-, c, hc, he⟩ := h.len_eq_depth hd (s := s) (by simpa [Nat.lt_succ_iff] using hs')
    rw [List.getElem_map, List.getElem_map, List.getElem_range, (List.getElem?_eq_some_iff.mp hc).2, he]
    rfl
  have hroot : d 512 = 0 := (hd [] 512#10 rfl).symm
  have hsum := h.arena.sum_leaves (w := fun n => 2 ^ (32 - d n)) fun n nd => hd.worth_children h.arena hle
  rw [kraftSum, hmap, hsum, hroot]
  rfl

/-- No code word begins another (R27): the path to a leaf does not go on. -/
theorem CodeOk.prefixFree {node code} (h : CodeOk node code) (hlen : code.length = Config.nsym) : PrefixFree code := by
  have hsym {s c} (hc : code[s]? = some c) :
      s ≤ 256 ∧ follow node (CodeEntry.stream c) 512#10 = some (BitVec.ofNat 10 s) := by
    have hs : s < 257 := (List.getElem?_eq_some_iff.mp hc).1.trans_eq hlen
    have hpath := (h.stream (Nat.le_of_lt_succ hs)).1
    rw [codeOf, hc] at hpath
    exact ⟨Nat.le_of_lt_succ hs, hpath⟩
  intro x y cx cy hx hy hne ⟨q, hq⟩
  obtain ⟨hx256, hpx⟩ := hsym hx
  obtain ⟨hy256, hpy⟩ := hsym hy
  have ex : (BitVec.ofNat 10 x).toNat = x := toNat_ofNat10 (by omega)
  have ey : (BitVec.ofNat 10 y).toNat = y := toNat_ofNat10 (by omega)
  rw [← hq, follow_append, hpx, Option.bind_some, h.arena.follow_leaf (ex.trans_le hx256)] at hpy
  split at hpy
  · exact hne (by rw [← ex, ← ey, Option.some.inj hpy])
  · cases hpy

/-- The lengths of the default code (R27): 1 for symbol 0 alone, 15 for symbols 119 and 256 alone, none longer. The row of
a symbol stands behind the three commands (`codeRows_ctorIdx`). -/
theorem codeRows_len : ∀ r ∈ codeRows, r.len ≤ 15 ∧ (r.len = 1 ↔ r.instr.ctorIdx = 3 + 0) ∧
    (r.len = 15 ↔ r.instr.ctorIdx = 3 + 119 ∨ r.instr.ctorIdx = 3 + 256) := by
  simp only [codeRows, List.forall_mem_append]
  refine ⟨⟨⟨⟨⟨⟨⟨⟨?_, ?_⟩, ?_⟩, ?_⟩, ?_⟩, ?_⟩, ?_⟩, ?_⟩, ?_⟩ <;> decide

theorem defaultCode_len {sym : Nat} {c : CodeEntry} (h : defaultCode[sym]? = some c) :
    c.len.toNat ≤ 15 ∧ (c.len.toNat = 1 ↔ sym = 0) ∧ (c.len.toNat = 15 ↔ sym = 119 ∨ sym = 256) := by
  rw [defaultCode, List.getElem?_map] at h
  obtain ⟨r, hr, rfl⟩ := Option.map_eq_some_iff.mp h
  have hidx : r.instr.ctorIdx = 3 + sym := by
    have hmap : (codeRows.map fun r => r.instr.ctorIdx)[sym]? = some r.instr.ctorIdx := by
      rw [List.getElem?_map, hr]
      rfl
    rw [codeRows_ctorIdx, List.getElem?_eq_some_iff] at hmap
    obtain ⟨_, he⟩ := hmap
    simpa [eq_comm] using he
  have hlen := codeRows_len r (List.mem_of_getElem? hr)
  rw [hidx] at hlen
  simp only [BitVec.toNat_ofNat, Nat.mod_eq_of_lt (show r.len < 2 ^ 6 by omega)]
  omega

/-- Settles O21: `READY = 1` says that the code is that of the tree built from `FREQ`, each code word the path to its
leaf. -/
theorem readyCodeTableIsPrefixFree : Obligations.ReadyCodeTableIsPrefixFree := by
  intro s hinv hready
  obtain ⟨hcode, hroot⟩ := Tree.of_inv hinv hready
  refine ⟨hcode.prefixFree hinv.codeLength, hinv.codeLength, hcode.kraftSum_eq hinv.codeLength, fun sym hsym => ?_,
    fun hfreq sym c hc => ?_⟩
  · obtain ⟨p, hp, hpos, hle, hc⟩ := hcode.path sym (Nat.le_of_lt_succ hsym)
    refine ⟨entryOf p, hc, ?_, ?_, entryOf_bits_lt hle, ?_⟩
    · rwa [entryOf_len hle]
    · rwa [entryOf_len hle]
    · rw [entryOf_stream hle, hroot]
      exact hp
  · have hbuilt := (hinv.built hready).2
    rw [hfreq, buildTables_default] at hbuilt
    have hdefault : s.code = defaultCode := (congrArg Tables.code (Option.some.inj hbuilt)).symm
    exact defaultCode_len (hdefault ▸ hc)

end Sys2Proof.Machine
end

section
/-! SUPPORT. What the results of COMPRESS and DECOMPRESS depend on (R149, R171), and so that an earlier one does not change
a later one's (O48). Two runs side by side: the relations say what the two states have in common, and each operation keeps
them. -/

namespace Sys2Proof.Machine

/-- Two outcomes of the same kind, with related next states. -/
def OutcomeRel (R : State → State → Prop) :
    Host.Outcome State Fault Refusal → Host.Outcome State Fault Refusal → Prop
  | .next t, .next t' => R t t'
  | .fault e, .fault e' => e = e'
  | .refused r, .refused r' => r = r'
  | _, _ => False

theorem OutcomeRel.cases {R : State → State → Prop} {o o' : Host.Outcome State Fault Refusal} (h : OutcomeRel R o o') :
    (∃ t t', o = .next t ∧ o' = .next t' ∧ R t t') ∨ (∃ e, o = .fault e ∧ o' = .fault e) ∨
      ∃ r, o = .refused r ∧ o' = .refused r := by
  cases o <;> cases o' <;> simp_all [OutcomeRel]

theorem OutcomeRel.exists_next {R : State → State → Prop} {o o' : Host.Outcome State Fault Refusal} {t : State}
    (h : OutcomeRel R o o') (ho : o = .next t) : ∃ t', o' = .next t' ∧ R t t' := by
  rcases h.cases with ⟨u, t', rfl, ho', hR⟩ | ⟨e, rfl, -⟩ | ⟨r, rfl, -⟩ <;> cases ho
  exact ⟨t', ho', hR⟩

theorem OutcomeRel.andThen {R Q : State → State → Prop} {o o' : Host.Outcome State Fault Refusal}
    {f f' : State → Host.Outcome State Fault Refusal} (h : OutcomeRel R o o')
    (hf : ∀ t t', R t t' → OutcomeRel Q (f t) (f' t')) : OutcomeRel Q (andThen o f) (andThen o' f') := by
  rcases h.cases with ⟨t, t', rfl, rfl, hR⟩ | ⟨e, rfl, rfl⟩ | ⟨r, rfl, rfl⟩
  · exact hf t t' hR
  · exact rfl
  · exact rfl

/-- What the host reads after a command (R29, R41). -/
def SameAnswer (s s' : State) : Prop := s'.res = s.res ∧ s'.outLen = s.outLen ∧ s'.out = s.out

theorem SameAnswer.outputBytes {s s' : State} (h : SameAnswer s s') : s'.outputBytes = s.outputBytes := by
  obtain ⟨-, hlen, hout⟩ := h
  rw [State.outputBytes, State.outputBytes, hout, hlen]

/-! ## COMPRESS -/

/-- What the encoder works on, the same in both states. -/
def EncoderAgree (s s' : State) : Prop :=
  s'.inst.outMax = s.inst.outMax ∧ s'.code = s.code ∧ s'.out = s.out ∧ s'.outLen = s.outLen ∧ s'.acc = s.acc ∧
    s'.bc = s.bc

theorem emitByte_encoderAgree {s s' : State} (h : EncoderAgree s s') (v : Byte) :
    OutcomeRel EncoderAgree (emitByte v s) (emitByte v s') := by
  obtain ⟨hmax, hcode, hout, hlen, hacc, hbc⟩ := h
  unfold emitByte
  rw [hlen, hmax]
  split
  · exact ⟨hmax, hcode, by simp [hout, hlen], by simp [hlen], hacc, hbc⟩
  · exact rfl

theorem dropByte_encoderAgree {s s' : State} (h : EncoderAgree s s') : EncoderAgree s.dropByte s'.dropByte := by
  obtain ⟨hmax, hcode, hout, hlen, hacc, hbc⟩ := h
  exact ⟨hmax, hcode, hout, hlen, by simp [hacc], by simp [hbc]⟩

theorem addCode_encoderAgree (c : CodeEntry) {s s' : State} (h : EncoderAgree s s') :
    EncoderAgree (s.addCode c) (s'.addCode c) := by
  obtain ⟨hmax, hcode, hout, hlen, hacc, hbc⟩ := h
  exact ⟨hmax, hcode, hout, hlen, by simp [hacc, hbc], by simp [hbc]⟩

theorem flush_encoderAgree (n : Nat) {s s' : State} (h : EncoderAgree s s') :
    OutcomeRel EncoderAgree (flush n s) (flush n s') := by
  induction n generalizing s s' with
  | zero => exact h
  | succ n ih =>
    have ⟨_, _, _, _, hacc, _⟩ := h
    rw [flush, flush, hacc]
    exact (emitByte_encoderAgree h _).andThen fun t t' ht => ih (dropByte_encoderAgree ht)

theorem put_encoderAgree (sym : Nat) {s s' : State} (h : EncoderAgree s s') :
    OutcomeRel EncoderAgree (put sym s) (put sym s') := by
  have ⟨_, hcode, _, _, _, hbc⟩ := h
  unfold put
  rw [State.codeAt, State.codeAt, hcode]
  cases s.code[sym]? with
  | none => exact rfl
  | some c =>
    dsimp only
    rw [addCode_bc, addCode_bc, hbc]
    exact flush_encoderAgree _ (addCode_encoderAgree c h)

theorem putAll_encoderAgree (bs : List Byte) {s s' : State} (h : EncoderAgree s s') :
    OutcomeRel EncoderAgree (putAll bs s) (putAll bs s') := by
  induction bs generalizing s s' with
  | nil => exact h
  | cons b bs ih => exact (put_encoderAgree b.toNat h).andThen fun t t' ht => ih ht

theorem padLast_encoderAgree {s s' : State} (h : EncoderAgree s s') :
    OutcomeRel EncoderAgree (padLast s) (padLast s') := by
  have ⟨_, _, _, _, hacc, hbc⟩ := h
  unfold padLast
  rw [hbc, hacc]
  split
  · exact h
  · exact emitByte_encoderAgree h _

/-- The answer of COMPRESS depends on `READY`, `CODE`, the input and `OUT_MAX` only (R149). -/
theorem execCompress_sameAnswer {s s' : State} (hready : s'.ready = s.ready) (hcode : s'.code = s.code)
    (hinp : s'.inp = s.inp) (hinLen : s'.inLen = s.inLen) (hmax : s'.inst.outMax = s.inst.outMax) :
    OutcomeRel SameAnswer (execCompress s) (execCompress s') := by
  unfold execCompress
  rw [hready, show s'.inputBytes = s.inputBytes by rw [State.inputBytes, State.inputBytes, hinp, hinLen]]
  split
  · cases s.inputBytes with
    | none => exact rfl
    | some bs =>
      have hstart : EncoderAgree (startEncoder s) (startEncoder s') := ⟨hmax, hcode, rfl, rfl, rfl, rfl⟩
      refine (putAll_encoderAgree bs hstart).andThen fun s1 s1' h1 => ?_
      refine (put_encoderAgree _ h1).andThen fun s2 s2' h2 => ?_
      refine (padLast_encoderAgree h2).andThen fun s3 s3' ⟨_, _, hout, hlen, _, _⟩ => ?_
      exact ⟨rfl, hlen, hout⟩
  · exact ⟨rfl, rfl, rfl⟩

/-! ## DECOMPRESS -/

/-- What the decoder works on, the same in both states. -/
def DecoderAgree (s s' : State) : Prop :=
  s'.inst.outMax = s.inst.outMax ∧ s'.node = s.node ∧ s'.root = s.root ∧ s'.out = s.out ∧ s'.outLen = s.outLen ∧
    s'.cur = s.cur

/-- Two walks of the same kind: going on from states that agree, or ended with the same answer. -/
def WalkRel : Walk → Walk → Prop
  | .going t, .going t' => DecoderAgree t t'
  | .ended o, .ended o' => OutcomeRel SameAnswer o o'
  | _, _ => False

theorem WalkRel.cases {w w' : Walk} (h : WalkRel w w') :
    (∃ t t', w = .going t ∧ w' = .going t' ∧ DecoderAgree t t') ∨
      ∃ o o', w = .ended o ∧ w' = .ended o' ∧ OutcomeRel SameAnswer o o' := by
  cases w <;> cases w' <;> simp_all [WalkRel]

theorem byteLeaf_decoderAgree {s s' : State} (h : DecoderAgree s s') (l : NodeIdx) :
    WalkRel (byteLeaf l s) (byteLeaf l s') := by
  obtain ⟨hmax, hnode, hroot, hout, hlen, -⟩ := h
  rw [byteLeaf_eq, byteLeaf_eq, hlen, hmax]
  split
  · exact ⟨hmax, hnode, hroot, by simp [hout, hlen], by simp [hlen], by simp [hroot]⟩
  · exact rfl

theorem decodeBit_decoderAgree {s s' : State} (h : DecoderAgree s s') (b : Bool) :
    WalkRel (decodeBit b s) (decodeBit b s') := by
  have ⟨hmax, hnode, hroot, hout, hlen, hcur⟩ := h
  unfold decodeBit
  rw [State.nodeAt, State.nodeAt, hnode, hcur]
  cases s.node[s.cur.toNat]? with
  | none => exact rfl
  | some nd =>
    have hcount : DecoderAgree s.countBit s'.countBit := h
    dsimp only
    split
    · exact ⟨rfl, rfl, rfl⟩
    · split
      · exact ⟨rfl, hlen, hout⟩
      · split
        · exact byteLeaf_decoderAgree hcount _
        · exact ⟨hmax, hnode, hroot, hout, hlen, rfl⟩

theorem decodeBits_decoderAgree (bs : List Bool) {s s' : State} (h : DecoderAgree s s') :
    WalkRel (decodeBits bs s) (decodeBits bs s') := by
  induction bs generalizing s s' with
  | nil => exact h
  | cons b bs ih =>
    rw [decodeBits, decodeBits]
    rcases (decodeBit_decoderAgree h b).cases with ⟨t, t', hw, hw', ht⟩ | ⟨o, o', hw, hw', ho⟩ <;> rw [hw, hw']
    · exact ih ht
    · exact ho

theorem WalkRel.endOfInput {w w' : Walk} (h : WalkRel w w') : OutcomeRel SameAnswer (endOfInput w) (endOfInput w') := by
  rcases h.cases with ⟨t, t', rfl, rfl, -⟩ | ⟨o, o', rfl, rfl, ho⟩
  · exact ⟨rfl, rfl, rfl⟩
  · exact ho

/-- The answer of DECOMPRESS depends on `READY`, `NODE`, `ROOT`, the input and `OUT_MAX` only (R171). -/
theorem execDecompress_sameAnswer {s s' : State} (hready : s'.ready = s.ready) (hnode : s'.node = s.node)
    (hroot : s'.root = s.root) (hinp : s'.inp = s.inp) (hinLen : s'.inLen = s.inLen)
    (hmax : s'.inst.outMax = s.inst.outMax) : OutcomeRel SameAnswer (execDecompress s) (execDecompress s') := by
  unfold execDecompress
  rw [hready, show s'.inputBits = s.inputBits by
    rw [State.inputBits, State.inputBytes, State.inputBits, State.inputBytes, hinp, hinLen]]
  split
  · cases s.inputBits with
    | none => exact rfl
    | some bits =>
      have hstart : DecoderAgree (startDecoder s) (startDecoder s') := ⟨hmax, hnode, hroot, rfl, rfl, hroot⟩
      exact (decodeBits_decoderAgree bits hstart).endOfInput
  · exact ⟨rfl, rfl, rfl⟩

/-- Settles O48: the first command leaves alone all that the answer of the second depends on. -/
theorem earlierCommandsDoNotInterfere : Obligations.EarlierCommandsDoNotInterfere := by
  intro i j s t u hi hj hrun hrun'
  obtain ⟨hinst, hnode, hroot, hcode, hready, hinp, hinLen⟩ := exec_sameTablesAndInput hi hrun
  have hmax : t.inst.outMax = s.inst.outMax := by rw [hinst]
  have hrel : OutcomeRel SameAnswer (exec j s) (exec j t) := by
    rcases hj with rfl | rfl
    · exact execCompress_sameAnswer hready hcode hinp hinLen hmax
    · exact execDecompress_sameAnswer hready hnode hroot hinp hinLen hmax
  obtain ⟨v, hv, hanswer⟩ := hrel.exists_next hrun'
  have ⟨hres, hlen, _⟩ := hanswer
  exact ⟨v, hv, hres, hlen, hanswer.outputBytes⟩

end Sys2Proof.Machine
end

section
/-! SUPPORT. No step of a state that meets the invariant faults (O52). Every byte of the input is there, every symbol has its
entry, and a walk that starts on an internal node of the built tree never leaves the arena. -/

namespace Sys2Proof.Machine

/-- What a step can do when it faults: a command faults, or a decoding in progress has an unspecified byte ahead of it, takes
a code word that faults, or faults on the last bits (log 1). -/
theorem step_eq_fault {s : State} {e : Fault} (h : step s = .fault e) :
    (s.phase = .idle ∧ ∃ c rest i, s.host = .writeCmd c :: rest ∧ decodeCommand c = .ok i ∧
      exec i (s.withHost rest) = .fault e) ∨
    (s.phase = .decoding ∧ s.remainingBits = none ∧ e = .unspecifiedByte) ∨
    (s.phase = .decoding ∧ ∃ bits rest i, s.remainingBits = some bits ∧ decodeCodeWord bits = .ok (i, rest) ∧
      exec i s = .fault e) ∨
    (s.phase = .decoding ∧ ∃ bits, s.remainingBits = some bits ∧ endOfInput (decodeBits bits s) = .fault e) := by
  unfold step at h
  split at h
  case h_1 => cases h
  case h_2 => cases h
  case h_3 =>
    unfold hostInput at h
    split at h <;> cases h
  case h_4 c rest idle queue =>
    split at h
    · rename_i i decoded
      exact .inl ⟨idle, c, rest, i, queue, decoded, h⟩
    · cases h
  case h_5 decoding =>
    split at h
    · rename_i fetched
      cases h
      exact .inr (.inl ⟨decoding, fetched, rfl⟩)
    · rename_i bits fetched
      split at h
      · rename_i i rest decoded
        exact .inr (.inr (.inl ⟨decoding, bits, rest, i, fetched, decoded, h⟩))
      · exact .inr (.inr (.inr ⟨decoding, bits, fetched, h⟩))

theorem noFault_next (s : State) : noFault (.next s) := nofun

theorem noFault.andThen {o : Host.Outcome State Fault Refusal} {f : State → Host.Outcome State Fault Refusal}
    (ho : noFault o) (hf : ∀ s, o = .next s → noFault (f s)) : noFault (andThen o f) := by
  intro e h
  rcases andThen_eq_fault.mp h with h | ⟨s, hs, h⟩
  · exact ho e h
  · exact hf s hs e h

/-! ## The input is there (R29, R75) -/

theorem State.Inv.inputBytes_eq_some {s : State} (h : s.Inv) : ∃ bs, s.inputBytes = some bs := by
  obtain ⟨bs, hbs, -⟩ := Memory.filled_bytes h.inFilled
  exact ⟨bs, hbs⟩

theorem State.Inv.inputBits_eq_some {s : State} (h : s.Inv) : ∃ bits, s.inputBits = some bits := by
  obtain ⟨bs, hbs⟩ := h.inputBytes_eq_some
  exact ⟨bytesBits bs, by rw [State.inputBits, hbs]; rfl⟩

theorem State.Inv.remainingBits_eq_some {s : State} (h : s.Inv) : ∃ bits, s.remainingBits = some bits := by
  obtain ⟨bits, hbits⟩ := h.inputBits_eq_some
  exact ⟨bits.drop s.k, by rw [State.remainingBits, hbits]; rfl⟩

/-! ## INIT and COMPRESS -/

theorem execInit_noFault (s : State) : noFault (execInit s) := by
  intro e h
  unfold execInit at h
  split at h
  · split at h <;> cases h
  · cases h

theorem put_noFault {sym : Nat} {s : State} (h : sym < s.code.length) : noFault (put sym s) := fun _ hfault =>
  absurd (put_eq_fault hfault).2 (by omega)

theorem padLast_noFault (s : State) : noFault (padLast s) := by
  intro e h
  unfold padLast at h
  split at h
  · cases h
  · exact emitByte_ne_fault _ _ _ h

/-- COMPRESS reads `CODE` at bytes and at EOS only, and the table holds them all (R66). -/
theorem execCompress_noFault {s : State} (h : s.Inv) : noFault (execCompress s) := by
  obtain ⟨bs, hbs⟩ := h.inputBytes_eq_some
  unfold execCompress
  rw [hbs]
  split
  · refine noFault.andThen (putAll_ne_fault (s := startEncoder s) h.codeLength.ge bs) fun s1 h1 => ?_
    obtain ⟨-, -, -, hcode, -⟩ := (putAll_encoderFrame h1).sameTablesAndInput
    have heos : Config.eos.toNat < s1.code.length := by
      rw [hcode, startEncoder_code, h.codeLength]
      decide
    refine (put_noFault heos).andThen fun s2 _ => ?_
    exact (padLast_noFault s2).andThen fun s3 _ => noFault_next _
  · exact noFault_next _

/-! ## The walk of the decoder -/

/-- An internal node stands in the arena (R66). -/
theorem OnInternal.nodeAt_ne_none {s : State} (h : OnInternal s) : s.nodeAt s.cur ≠ none := by
  obtain ⟨hT, h1, h2⟩ := h
  obtain ⟨nd, hnd, -⟩ := hT.code.arena.child h1 h2
  rw [State.nodeAt, hnd]
  nofun

/-- A walk from an internal node that ends does so with a result or for want of room: the node it stands on before its last
bit is internal again. -/
theorem decodeBits_ended_noFault {bs : List Bool} {s : State} {o : Host.Outcome State Fault Refusal} (hs : OnInternal s)
    (h : decodeBits bs s = .ended o) : noFault o := by
  obtain ⟨p, b, s', hp, hb⟩ := decodeBits_ended h
  have hs' : OnInternal s' := decodeBits_going_keeps decodeBit_going_onInternal hs hp
  rcases decodeBit_ended hb with ⟨hnone, -⟩ | ⟨nd, -, ⟨-, rfl⟩ | ⟨-, rfl⟩ | ⟨-, rfl⟩⟩
  · exact absurd hnone hs'.nodeAt_ne_none
  · exact noFault_next _
  · exact noFault_next _
  · nofun

theorem endOfInput_noFault {bs : List Bool} {s : State} (hs : OnInternal s) : noFault (endOfInput (decodeBits bs s)) := by
  cases h : decodeBits bs s with
  | going s' => exact noFault_next _
  | ended o => exact decodeBits_ended_noFault hs h

theorem consumeCodeWord_noFault {word len : Nat} {s : State} (hr : s.ready = true) (hs : OnInternal s) :
    noFault (consumeCodeWord word len s) := by
  rw [consumeCodeWord_ready hr]
  cases h : decodeBits (bitsLsb len word) s with
  | going s' => exact noFault_next _
  | ended o => exact decodeBits_ended_noFault hs h

/-- DECOMPRESS starts at the root, which is internal (R24, R161). -/
theorem startDecoder_onInternal {s : State} (hT : Tree s) : OnInternal (startDecoder s) := by
  have hroot : s.root.toNat = 512 := congrArg BitVec.toNat hT.root
  exact ⟨⟨hT.code, hT.root⟩, by simp [hroot], by simp [hroot]⟩

theorem execDecompress_noFault {s : State} (h : s.Inv) : noFault (execDecompress s) := by
  obtain ⟨bits, hbits⟩ := h.inputBits_eq_some
  unfold execDecompress
  rw [hbits]
  split
  · rename_i hready
    exact endOfInput_noFault (startDecoder_onInternal (Tree.of_inv h hready))
  · exact noFault_next _

/-- A decoding in progress stands on an internal node of the built tree. -/
theorem State.Inv.onInternal {s : State} (h : s.Inv) (decoding : s.phase = .decoding) : OnInternal s := by
  obtain ⟨hready, hinternal, -⟩ := h.decoding decoding
  exact ⟨Tree.of_inv h hready, hinternal⟩

/-- Settles O52: by the cases of a step that faults, none of which the invariant allows. -/
theorem stepNeverFaults : Obligations.StepNeverFaults := by
  intro s h e hstep
  rcases step_eq_fault hstep with ⟨idle, c, rest, i, -, decoded, run⟩ | ⟨-, unfetched, -⟩ |
    ⟨decoding, bits, rest, i, -, decoded, run⟩ | ⟨decoding, bits, -, run⟩
  · have h' := withHost_inv h idle rest
    rcases decodeCommand_eq_ok decoded with ⟨-, rfl⟩ | rfl | rfl
    · exact execInit_noFault _ e run
    · exact execCompress_noFault h' e run
    · exact execDecompress_noFault h' e run
  · obtain ⟨bits, fetched⟩ := h.remainingBits_eq_some
    rw [unfetched] at fetched
    cases fetched
  · rw [exec_codeWord i s (decodeCodeWord_eq_ok decoded).1] at run
    exact consumeCodeWord_noFault (h.decoding decoding).ready (h.onInternal decoding) e run
  · exact endOfInput_noFault (h.onInternal decoding) e run

end Sys2Proof.Machine
end

section
/-! SUPPORT. Packing (O13, R61, R88): a byte made of at most eight bits has those bits and zeros above them. -/

namespace Sys2Proof.Machine

theorem bitsLsb_getElem? {n i : Nat} (h : i < n) (w : Nat) : (bitsLsb n w)[i]? = some (w.testBit i) := by
  simp [bitsLsb, h]

theorem bytesBits_cons (b : Byte) (bs : List Byte) : bytesBits (b :: bs) = byteBits b ++ bytesBits bs := rfl

/-- Bit `k` is bit `k mod 8` of byte `k div 8` (R61). -/
theorem bytesBits_getElem? {bs : List Byte} {k : Nat} {b : Byte} (h : bs[k / 8]? = some b) :
    (bytesBits bs)[k]? = some (b.getLsbD (k % 8)) := by
  induction bs generalizing k with
  | nil => cases h
  | cons a bs ih =>
    rw [bytesBits_cons]
    by_cases hk : k < 8
    · rw [Nat.div_eq_of_lt hk] at h
      cases h
      rw [List.getElem?_append_left (by rwa [byteBits_length]), byteBits, bitsLsb_getElem? hk, Nat.mod_eq_of_lt hk]
      rfl
    · obtain ⟨j, rfl⟩ := Nat.exists_eq_add_of_le' (Nat.le_of_not_lt hk)
      rw [Nat.add_div_right j (by decide), List.getElem?_cons_succ] at h
      rw [List.getElem?_append_right (by rw [byteBits_length]; omega), byteBits_length, Nat.add_sub_cancel, ih h,
        Nat.add_mod_right]

theorem bitsValue_replicate_false (n : Nat) : bitsValue (List.replicate n false) = 0 := by
  induction n with
  | zero => rfl
  | succ n ih => rw [List.replicate_succ, bitsValue, ih]; rfl

/-- A byte made of at most eight bits: those bits, then pad bits 0 (R7, R88). The value is that of all eight bits. -/
theorem byteBits_bitsValue {p : List Bool} (h : p.length ≤ 8) :
    byteBits (BitVec.ofNat 8 (bitsValue p)) = p ++ List.replicate (8 - p.length) false := by
  have hpow : (2 : Nat) ^ p.length ≤ 2 ^ 8 := Nat.pow_le_pow_right (by decide) h
  have hvalue : bitsValue (p ++ List.replicate (8 - p.length) false) = bitsValue p := by
    rw [bitsValue_append, bitsValue_replicate_false, Nat.mul_zero, Nat.add_zero]
  have hlength : (p ++ List.replicate (8 - p.length) false).length = 8 := by
    rw [List.length_append, List.length_replicate, Nat.add_sub_cancel' h]
  have hall := bitsLsb_bitsValue (p ++ List.replicate (8 - p.length) false)
  rw [hlength, hvalue] at hall
  rw [byteBits, BitVec.toNat_ofNat, Nat.mod_eq_of_lt ((bitsValue_lt p).trans_le hpow), hall]

/-- A stream of one to seven bits is packed into one byte (R88). -/
theorem packBits_short {p : List Bool} (hne : p ≠ []) (h : p.length < 8) :
    packBits p = [BitVec.ofNat 8 (bitsValue p)] := by
  refine packBits.eq_3 p hne ?_
  rintro b0 b1 b2 b3 b4 b5 b6 b7 rest rfl
  simp only [List.length_cons] at h
  omega

/-- Eight bits at the front of a stream are its first byte (R61, R88). -/
theorem packBits_byte {p : List Bool} (h : p.length = 8) (rest : List Bool) :
    packBits (p ++ rest) = BitVec.ofNat 8 (bitsValue p) :: packBits rest := by
  match p, h with
  | [_, _, _, _, _, _, _, _], _ => rfl

/-- The bits of `P(B)` are `B` and the pad (R88): none, one byte, or a first byte and the rest. -/
theorem bytesBits_packBits (B : List Bool) :
    bytesBits (packBits B) = B ++ List.replicate ((8 - B.length % 8) % 8) false := by
  rcases Nat.lt_or_ge B.length 8 with hshort | hlong
  · by_cases hne : B = []
    · rw [hne]
      rfl
    · have hpos : 0 < B.length := List.length_pos_iff.mpr hne
      rw [packBits_short hne hshort, bytesBits_cons, byteBits_bitsValue hshort.le, Nat.mod_eq_of_lt hshort,
        Nat.mod_eq_of_lt (by omega)]
      exact List.append_nil _
  · have hfirst : (B.take 8).length = 8 := List.length_take_of_le hlong
    have hrest : (B.drop 8).length % 8 = B.length % 8 := by
      rw [List.length_drop]
      omega
    have ih := bytesBits_packBits (B.drop 8)
    have hbyte := byteBits_bitsValue hfirst.le
    rw [hfirst, Nat.sub_self, List.replicate_zero, List.append_nil] at hbyte
    calc bytesBits (packBits B)
        = bytesBits (packBits (B.take 8 ++ B.drop 8)) := by rw [List.take_append_drop]
      _ = B.take 8 ++ (B.drop 8 ++ List.replicate ((8 - B.length % 8) % 8) false) := by
        rw [packBits_byte hfirst, bytesBits_cons, hbyte, ih, hrest]
      _ = B ++ List.replicate ((8 - B.length % 8) % 8) false := by rw [← List.append_assoc, List.take_append_drop]
termination_by B.length

theorem packBits_length (B : List Bool) : (packBits B).length = (B.length + 7) / 8 := by
  have h := congrArg List.length (bytesBits_packBits B)
  rw [bytesBits_length, List.length_append, List.length_replicate] at h
  omega

/-- Settles O13: where each bit of a byte list stands, and what the bytes of a packed stream hold. -/
theorem packedStreamHoldsTheBits : Obligations.PackedStreamHoldsTheBits :=
  ⟨fun _ _ _ h => bytesBits_getElem? h, bytesBits_packBits, packBits_length⟩

end Sys2Proof.Machine
end

section
/-! SUPPORT. What COMPRESS, DECOMPRESS and the code words leave alone (O47, R65), from the frames of the two units. -/

namespace Sys2Proof.Machine

theorem EncoderFrame.sameOthers {s t : State} (h : EncoderFrame s t) :
    sameBuilder s t ∧ sameDecoder s t ∧ t.host = s.host := by
  rw [show t = _ from h]
  exact ⟨⟨rfl, rfl⟩, ⟨rfl, rfl⟩, rfl⟩

theorem DecoderFrame.sameOthers {s t : State} (h : DecoderFrame s t) :
    sameBuilder s t ∧ sameEncoder s t ∧ t.host = s.host := by
  rw [show t = _ from h]
  exact ⟨⟨rfl, rfl⟩, ⟨rfl, rfl⟩, rfl⟩

/-- COMPRESS leaves the builder's and the decoder's registers alone (R65). -/
theorem execCompress_sameOthers {s t : State} (h : execCompress s = .next t) :
    sameBuilder s t ∧ sameDecoder s t ∧ t.host = s.host := by
  rcases execCompress_eq_next h with ⟨-, rfl⟩ | ⟨-, bs, s1, s2, s3, -, h1, h2, h3, rfl⟩
  · exact ⟨⟨rfl, rfl⟩, ⟨rfl, rfl⟩, rfl⟩
  · exact (compressParts_encoderFrame h1 h2 h3).sameOthers

/-- Settles O47: by the frames of COMPRESS, of DECOMPRESS and of a code word. -/
theorem encoderAndDecoderFrame : Obligations.EncoderAndDecoderFrame := by
  refine ⟨fun s t h => ?_, fun i s t hi h => ?_⟩
  · obtain ⟨htables, hphase⟩ := execCompress_frame h
    obtain ⟨hbuilder, hdecoder, hhost⟩ := execCompress_sameOthers h
    exact ⟨htables, hbuilder, hdecoder, hhost, hphase⟩
  · have hf : DecoderFrame s t := by
      rcases hi with rfl | hi
      · exact execDecompress_frame h
      · exact exec_codeWord_frame hi h
    exact ⟨hf.sameTablesAndInput, hf.sameOthers⟩

end Sys2Proof.Machine
end

section
/-! SUPPORT. Bit strings and the opcode table: a bit string and its value (R97), the row of each instruction, and the default
code table as the paths of the default tree. -/

namespace Sys2Proof.Machine

/-! ## Windows (R97) -/

/-- The `n` bits of a word say what it is modulo `2^n`. -/
theorem bitsLsb_eq_iff {n v w : Nat} : bitsLsb n v = bitsLsb n w ↔ v % 2 ^ n = w % 2 ^ n := by
  rw [bitsLsb, bitsLsb, List.map_inj_left]
  constructor
  · intro h
    refine Nat.eq_of_testBit_eq fun i => ?_
    rw [Nat.testBit_mod_two_pow, Nat.testBit_mod_two_pow]
    by_cases hi : i < n
    · rw [h i (List.mem_range.mpr hi)]
    · rw [decide_eq_false hi, Bool.false_and, Bool.false_and]
  · intro h i hi
    have hbit : (v % 2 ^ n).testBit i = (w % 2 ^ n).testBit i := by rw [h]
    simpa [Nat.testBit_mod_two_pow, List.mem_range.mp hi] using hbit

theorem take_bitsLsb {m n : Nat} (h : m ≤ n) (w : Nat) : (bitsLsb n w).take m = bitsLsb m w := by
  rw [bitsLsb, ← List.map_take, List.take_range, Nat.min_eq_left h, bitsLsb]

/-- The low bits of `v` stand at the front of a window exactly when the window agrees with `v` under the mask. -/
theorem bitsLsb_prefix_iff {m n v w : Nat} (hv : v < 2 ^ m) (h : m ≤ n) :
    bitsLsb m v <+: bitsLsb n w ↔ w &&& (2 ^ m - 1) = v := by
  rw [List.prefix_iff_eq_take, bitsLsb_length, take_bitsLsb h, bitsLsb_eq_iff, Nat.mod_eq_of_lt hv,
    Nat.and_two_pow_sub_one_eq_mod, eq_comm]

theorem dropPrefix_isSome_iff {p bs : List Bool} : (∃ rest, dropPrefix p bs = some rest) ↔ p <+: bs :=
  exists_congr fun _ => dropPrefix_eq_some.trans eq_comm

/-! ## Rows and instructions (R80, R97) -/

theorem isCommand_iff {i : Instr} : i.isCommand = true ↔ ∃ r ∈ commandRows, r.instr = i := by
  simp only [Instr.isCommand, List.any_eq_true, beq_iff_eq]

theorem commandRow_encodes : ∀ r ∈ commandRows, encodeRow r.instr = r := by decide

/-- Every instruction has a row, the one whose place is the instruction's number (`allRows_ctorIdx`). -/
theorem exists_row (i : Instr) : ∃ r ∈ allRows, r.instr = i := by
  have hlt : i.ctorIdx < 260 := by cases i <;> exact Nat.le_of_ble_eq_true rfl
  have hmem : i.ctorIdx ∈ allRows.map fun r => r.instr.ctorIdx := by
    rw [allRows_ctorIdx]
    exact List.mem_range'_1.mpr ⟨Nat.zero_le _, by omega⟩
  obtain ⟨r, hr, hidx⟩ := List.mem_map.mp hmem
  exact ⟨r, hr, by rw [← Instr.ofNat_ctorIdx r.instr, hidx, Instr.ofNat_ctorIdx]⟩

theorem codeRows_length : codeRows.length = 257 := by
  have h := congrArg List.length codeRows_ctorIdx
  rwa [List.length_map, List.length_range'] at h

/-- An instruction that is no command is encoded by a row of the code table. -/
theorem encodeRow_mem_codeRows {i : Instr} (h : i.isCommand = false) :
    encodeRow i ∈ codeRows ∧ (encodeRow i).instr = i := by
  obtain ⟨r, hr, rfl⟩ := exists_row i
  rcases List.mem_append.mp hr with hcmd | hcode
  · rw [isCommand_iff.mpr ⟨r, hcmd, rfl⟩] at h
    cases h
  · rw [(encodeRow_of_mem_codeRows hcode).2]
    exact ⟨hcode, rfl⟩

/-- No code word has a bit beyond its length (R84). Piece by piece, as the table is written. -/
theorem codeRows_word_lt : ∀ r ∈ codeRows, r.word < 2 ^ r.len := by
  simp only [codeRows, List.forall_mem_append]
  refine ⟨⟨⟨⟨⟨⟨⟨⟨?_, ?_⟩, ?_⟩, ?_⟩, ?_⟩, ?_⟩, ?_⟩, ?_⟩, ?_⟩ <;> decide

/-! ## The code table as the paths of the default tree (R99, R116) -/

theorem defaultTables_codeOk : CodeOk defaultNode defaultCode := codeOk_of_build defaultFreq_length buildTables_default

theorem defaultCode_length : defaultCode.length = Config.nsym := by
  rw [defaultCode, List.length_map, codeRows_length]
  rfl

/-- The entry of a symbol in `CODE` holds the bits of its row (R84, R97). -/
theorem defaultCode_stream {x : Nat} {r : Row} (h : codeRows[x]? = some r) :
    ∃ c, defaultCode[x]? = some c ∧ CodeEntry.stream c = r.bits := by
  have hr := List.mem_of_getElem? h
  have hlen := (codeRows_len r hr).1
  have hpow : (2 : Nat) ^ r.len ≤ 2 ^ 32 := Nat.pow_le_pow_right (by decide) (by omega)
  refine ⟨_, by rw [defaultCode, List.getElem?_map, h]; rfl, ?_⟩
  rw [CodeEntry.stream, BitVec.toNat_ofNat, BitVec.toNat_ofNat, Nat.mod_eq_of_lt (by omega),
    Nat.mod_eq_of_lt ((codeRows_word_lt r hr).trans_le hpow), Row.bits]

/-- No row's bits begin another row's (R121). -/
theorem codeRows_prefixFree {r r' : Row} (hr : r ∈ codeRows) (hr' : r' ∈ codeRows) (h : r.bits <+: r'.bits) : r = r' := by
  obtain ⟨x, hx⟩ := List.getElem?_of_mem hr
  obtain ⟨y, hy⟩ := List.getElem?_of_mem hr'
  obtain ⟨c, hc, hcbits⟩ := defaultCode_stream hx
  obtain ⟨c', hc', hcbits'⟩ := defaultCode_stream hy
  by_cases hxy : x = y
  · exact Option.some.inj (hx.symm.trans (hxy ▸ hy))
  · rw [← hcbits, ← hcbits'] at h
    exact absurd h (defaultTables_codeOk.prefixFree defaultCode_length x y c c' hc hc' hxy)

/-- Two rows whose bits begin the same bit string are one row. -/
theorem codeRows_unique {r r' : Row} (hr : r ∈ codeRows) (hr' : r' ∈ codeRows) {bits : List Bool}
    (h : r.bits <+: bits) (h' : r'.bits <+: bits) : r = r' := by
  rcases List.prefix_or_prefix_of_prefix h h' with hp | hp
  · exact codeRows_prefixFree hr hr' hp
  · exact (codeRows_prefixFree hr' hr hp).symm

/-! ## Paths along a bit string (R95) -/

/-- From every node the bits of a string lead on to a leaf, or up to a leaf that lies further on. -/
theorem Arena.exists_leaf_along {node} (hA : Arena node) {n : NodeIdx} (hn : n.toNat ≤ 512) (bits : List Bool) :
    ∃ p l, l.toNat ≤ 256 ∧ follow node p n = some l ∧ (p <+: bits ∨ bits <+: p) := by
  induction hm : n.toNat using Nat.strong_induction_on generalizing n bits with
  | _ m ih =>
    subst hm
    by_cases hleaf : n.toNat ≤ 256
    · exact ⟨[], n, hleaf, rfl, .inl List.nil_prefix⟩
    · obtain ⟨nd, hnd, hch⟩ := hA.child (not_le.mp hleaf) hn
      have hstep (b : Bool) (p : List Bool) : follow node (b :: p) n = follow node p (branch b nd) := by
        rw [follow, hnd]
        exact if_neg (hch b).2
      have hdown (b : Bool) (t : List Bool) := ih _ (hch b).1 ((hch b).1.le.trans hn) t rfl
      cases bits with
      | nil =>
        obtain ⟨p, l, hl, hp, -⟩ := hdown false []
        exact ⟨false :: p, l, hl, (hstep false p).trans hp, .inr List.nil_prefix⟩
      | cons b t =>
        obtain ⟨p, l, hl, hp, hpt⟩ := hdown b t
        refine ⟨b :: p, l, hl, (hstep b p).trans hp, ?_⟩
        simpa only [List.cons_prefix_cons, true_and] using hpt

/-- A bit string as long as the longest code word begins with a code word (R95). -/
theorem CodeOk.exists_code_prefix {node code m} (h : CodeOk node code)
    (hm : ∀ s, s ≤ 256 → (codeOf code s).length ≤ m) {bits : List Bool} (hb : m ≤ bits.length) :
    ∃ s, s ≤ 256 ∧ codeOf code s <+: bits := by
  obtain ⟨p, l, hl, hp, hpb⟩ := h.arena.exists_leaf_along (n := 512#10) (by decide) bits
  have hcode : p = codeOf code l.toNat := by
    refine h.arena.path_unique hp ?_
    rw [(h.stream hl).1, BitVec.ofNat_toNat, BitVec.setWidth_eq]
  refine ⟨l.toNat, hl, hcode ▸ ?_⟩
  rcases hpb with hpb | hbp
  · exact hpb
  · rw [hbp.eq_of_length_le (hcode ▸ (hm _ hl).trans hb)]

theorem codeOf_defaultCode {s : Nat} {r : Row} (h : codeRows[s]? = some r) : codeOf defaultCode s = r.bits := by
  obtain ⟨c, hc, hbits⟩ := defaultCode_stream h
  rw [codeOf, hc]
  exact hbits

end Sys2Proof.Machine
end

section
/-! SUPPORT. The two decoders and the encoder (R80, R86, R90), and the mask and match of a row (R97). -/

namespace Sys2Proof.Machine

/-- The values of `CMD` that decode are the words of the command rows (R80). -/
theorem decodeCommand_eq_ok_iff {c : CmdWord} {i : Instr} :
    decodeCommand c = .ok i ↔ i.isCommand = true ∧ encodeCommand i = c := by
  constructor
  · intro h
    cases hfind : commandRows.find? fun r => r.word == c.toNat with
    | none =>
      rw [decodeCommand, hfind] at h
      cases h
    | some r =>
      rw [decodeCommand, hfind] at h
      cases h
      have hr := List.mem_of_find?_eq_some hfind
      have hword : r.word = c.toNat := eq_of_beq (List.find?_some (p := fun r : Row => r.word == c.toNat) hfind)
      refine ⟨isCommand_iff.mpr ⟨r, hr, rfl⟩, ?_⟩
      rw [encodeCommand, commandRow_encodes r hr, hword, BitVec.ofNat_toNat, BitVec.setWidth_eq]
  · rintro ⟨hi, rfl⟩
    have decodes : ∀ r ∈ commandRows, decodeCommand (encodeCommand r.instr) = .ok r.instr := by decide
    obtain ⟨r, hr, rfl⟩ := isCommand_iff.mp hi
    exact decodes r hr

/-- The code word at the front of a bit string is found (R90): the row search can stop at no other row. -/
theorem decodeCodeWord_bits {r : Row} (hr : r ∈ codeRows) (rest : List Bool) :
    decodeCodeWord (r.bits ++ rest) = .ok (r.instr, rest) := by
  cases hfound : firstMatch codeRows (r.bits ++ rest) with
  | none =>
    have hnone := firstMatch_eq_none.mp hfound r hr
    rw [dropPrefix_eq_some.mpr rfl] at hnone
    cases hnone
  | some found =>
    obtain ⟨i, rest'⟩ := found
    obtain ⟨r', hr', rfl, hbits⟩ := firstMatch_eq_some hfound
    cases codeRows_unique hr hr' (List.prefix_append _ rest) ⟨rest', hbits.symm⟩
    rw [decodeCodeWord, hfound, List.append_cancel_left hbits]

/-- Settles O9: a command's value is the one decoded (R80), and a code word's row is the only one that matches (R121). -/
theorem decodeOfEncodeIsTheInstruction : Obligations.DecodeOfEncodeIsTheInstruction := by
  refine ⟨fun i hi => decodeCommand_eq_ok_iff.mpr ⟨hi, rfl⟩, fun i rest hi => ?_⟩
  obtain ⟨hrow, hinstr⟩ := encodeRow_mem_codeRows hi
  rw [encodeBits, decodeCodeWord_bits hrow, hinstr]

/-- Settles O10: only a row of the tables makes a decoder answer, and that row is the encoding. -/
theorem decodedBitsAreTheEncoding : Obligations.DecodedBitsAreTheEncoding :=
  ⟨fun _ _ => decodeCommand_eq_ok_iff.mp, fun _ _ _ => decodeCodeWord_eq_ok⟩

/-- Settles O11: fifteen bits walked through the default tree pass a leaf. -/
theorem longBitStringsAlwaysDecode : Obligations.LongBitStringsAlwaysDecode := by
  intro bits hlong
  have hrow (s : Nat) (hs : s ≤ 256) : ∃ r, codeRows[s]? = some r :=
    ⟨_, List.getElem?_eq_getElem (codeRows_length ▸ Nat.lt_succ_of_le hs)⟩
  have hshort (s : Nat) (hs : s ≤ 256) : (codeOf defaultCode s).length ≤ 15 := by
    obtain ⟨r, hr⟩ := hrow s hs
    rw [codeOf_defaultCode hr, Row.bits, bitsLsb_length]
    exact (codeRows_len r (List.mem_of_getElem? hr)).1
  obtain ⟨s, hs, hfront⟩ := defaultTables_codeOk.exists_code_prefix hshort hlong
  obtain ⟨r, hr⟩ := hrow s hs
  rw [codeOf_defaultCode hr] at hfront
  obtain ⟨rest, rfl⟩ := hfront
  exact ⟨_, decodeCodeWord_bits (List.mem_of_getElem? hr) rest⟩

/-- The window test of R97 for one row. -/
theorem row_prefix_iff {r : Row} (hr : r ∈ codeRows) {n : Nat} (h : r.len ≤ n) (w : Nat) :
    r.bits <+: bitsLsb n w ↔ w &&& (2 ^ r.len - 1) = r.word :=
  bitsLsb_prefix_iff (codeRows_word_lt r hr) h

/-- Settles O12: the second clause looks at a window that is long enough for both rows. -/
theorem maskAndMatchSelectOneRow : Obligations.MaskAndMatchSelectOneRow := by
  refine ⟨fun r hr n w hn => dropPrefix_isSome_iff.trans (row_prefix_iff hr hn w), fun r hr r' hr' w h h' => ?_⟩
  exact codeRows_unique hr hr' ((row_prefix_iff hr (Nat.le_max_left r.len r'.len) w).mpr h)
    ((row_prefix_iff hr' (Nat.le_max_right r.len r'.len) w).mpr h')

/-- Settles O8: each code word is the bits of its symbol's row (R99), behind which nothing follows. -/
theorem writtenOutWordsDecode : Obligations.WrittenOutWordsDecode := by
  have decodes {x : Nat} {r : Row} (h : codeRows[x]? = some r) : decodeCodeWord (r.bits ++ []) = .ok (r.instr, []) :=
    decodeCodeWord_bits (List.mem_of_getElem? h) []
  exact ⟨rfl, rfl, rfl, rfl, decodes (x := 0) (r := ⟨.sym000, 1, 0x1⟩) rfl,
    decodes (x := 104) (r := ⟨.sym104, 13, 0x15AE⟩) rfl, decodes (x := 119) (r := ⟨.sym119, 15, 0x5B8A⟩) rfl,
    decodes (x := 256) (r := ⟨.symEos, 15, 0x1B8A⟩) rfl⟩

/-! ## The step and what it decodes -/

/-- Settles O5: by the branch of an idle step that takes a write of `CMD`. -/
theorem stepRunsTheDecodedCommand : Obligations.StepRunsTheDecodedCommand := by
  intro s c rest i idle queue decoded
  change step s = exec i (s.withHost rest)
  unfold step
  rw [idle, queue]
  dsimp only
  rw [decoded]

/-- Settles O6: the bits from `K` on are the remaining bits. -/
theorem stepRunsTheDecodedCodeWord : Obligations.StepRunsTheDecodedCodeWord := by
  intro s bits rest i decoding input decoded
  have fetched : s.remainingBits = some (bits.drop s.k) := by rw [State.remainingBits, input, Option.map_some]
  unfold step
  rw [decoding]
  dsimp only
  rw [fetched]
  dsimp only
  rw [decoded]

/-- Settles O7: 0 is the one value of `CMD` that does not decode. -/
theorem reservedCommandIsRefused : Obligations.ReservedCommandIsRefused := by
  intro s rest idle queue
  have reserved : decodeCommand 0 = .error .reservedCommand := rfl
  unfold step
  rw [idle, queue]
  dsimp only
  rw [reserved]

end Sys2Proof.Machine
end

section
/-! SUPPORT. INIT completes on a `FREQ` in the range of R9 (O14, O16, O17, O19, O22, O23). Where no leaf stands deeper than
the levels `ASSIGN` has to go, it finds room at every internal node it meets; so a `FREQ` in range has its tables built, and
what INIT answers is read off them. -/

namespace Sys2Proof.Machine

/-- Under every node there is a leaf, no higher than the node itself. -/
theorem exists_leafDepths_ge (node : List Node) (fuel : Nat) (n : NodeIdx) (d : Nat) :
    ∃ x ∈ leafDepths node fuel n d, d ≤ x := by
  induction fuel generalizing n d with
  | zero => exact ⟨d, List.mem_singleton_self d, le_rfl⟩
  | succ fuel ih =>
    rw [leafDepths]
    split
    · exact ⟨d, List.mem_singleton_self d, le_rfl⟩
    · split
      · rename_i nd _
        obtain ⟨x, hx, hle⟩ := ih nd.c0 (d + 1)
        exact ⟨x, List.mem_append_left _ hx, Nat.le_of_succ_le hle⟩
      · exact ⟨d, List.mem_singleton_self d, le_rfl⟩

/-- The converse of `leafDepths_le_of_assign`: `ASSIGN` answers where its room reaches every leaf below (R9, R116). Children
are older than their parents, so `n + 1` levels of fuel see all of them. -/
theorem Arena.assign_isSome {node} (hA : Arena node) {fuel room d : Nat} {n : NodeIdx} (bits : BitVec 32)
    (code : List CodeEntry) (hn : n.toNat ≤ 512) (hfuel : n.toNat < fuel)
    (hdepth : ∀ x ∈ leafDepths node fuel n d, x ≤ d + room) : ∃ code', assign node room n bits d code = some code' := by
  induction fuel generalizing room d n bits code with
  | zero => exact absurd hfuel (Nat.not_lt_zero _)
  | succ fuel ih =>
    by_cases hleaf : n.toNat ≤ 256
    · exact ⟨_, assign_leaf hleaf room bits d code⟩
    · obtain ⟨nd, hnd, hch⟩ := hA.child (not_le.mp hleaf) hn
      have h0 : nd.c0.toNat < n.toNat := (hch false).1
      have h1 : nd.c1.toNat < n.toNat := (hch true).1
      rw [leafDepths_internal (not_le.mp hleaf) hnd, List.forall_mem_append] at hdepth
      obtain ⟨hdepth0, hdepth1⟩ := hdepth
      obtain ⟨room', rfl⟩ : ∃ room', room = room' + 1 := by
        obtain ⟨x, hx, hle⟩ := exists_leafDepths_ge node fuel nd.c0 (d + 1)
        have := hdepth0 x hx
        exact Nat.exists_eq_add_one.mpr (by omega)
      rw [show d + (room' + 1) = d + 1 + room' by omega] at hdepth0 hdepth1
      obtain ⟨code1, ha0⟩ := ih bits code (by omega) (by omega) hdepth0
      obtain ⟨code2, ha1⟩ := ih (bits ||| (1#32 <<< d)) code1 (by omega) (by omega) hdepth1
      exact ⟨code2, (assign_internal (not_le.mp hleaf)).mpr ⟨room', nd, code1, rfl, hnd, ha0, ha1⟩⟩

/-- The tables of a `FREQ` in the range of R9 are built. -/
theorem FreqInRange.exists_tables {freq : List Freq} (h : FreqInRange freq) : ∃ x, buildTables freq = some x := by
  obtain ⟨code, hcode⟩ := (builtNode_arena h.length).assign_isSome (n := 512) (fuel := Config.nnode) (d := 0) 0
    (List.replicate Config.nsym ⟨0, 0⟩) (by decide) (by decide) (by simpa only [Nat.zero_add] using h.depth)
  exact ⟨⟨builtNode freq, 512, code⟩, (buildTables_eq_some h.length).mpr ⟨h.sum, rfl, rfl, hcode⟩⟩

/-- What INIT answers on 257 entries whose tables are built (R117). -/
theorem execInit_of_buildTables {s : State} {x : Tables} (h : s.inst.freq.length = Config.nsym)
    (hx : buildTables s.inst.freq = some x) : execInit s = .next (releaseBuilder (succeed (loadTables x s))) :=
  (if_pos h).trans (by rw [hx])

/-- What INIT answers on another number of entries (R119). -/
theorem execInit_of_wrongLength {s : State} (h : s.inst.freq.length ≠ Config.nsym) :
    execInit s = .next (raise .configurationError { s with ready := false }) := if_neg h

/-- INIT on a `FREQ` in the range of R9 answers with the tables built from it. -/
theorem execInit_of_inRange {s : State} (h : FreqInRange s.inst.freq) :
    ∃ x, buildTables s.inst.freq = some x ∧ exec .init s = .next (releaseBuilder (succeed (loadTables x s))) :=
  have ⟨x, hx⟩ := h.exists_tables
  ⟨x, hx, execInit_of_buildTables h.length hx⟩

/-- What INIT answered, where `FREQ` has 257 entries. -/
theorem execInit_next_of_length {s t : State} (h : s.inst.freq.length = Config.nsym) (run : exec .init s = .next t) :
    ∃ x, buildTables s.inst.freq = some x ∧ t = releaseBuilder (succeed (loadTables x s)) := by
  rcases execInit_eq_next run with ⟨hne, -⟩ | ⟨-, hbuilt⟩
  · exact absurd h hne
  · exact hbuilt

/-- A symbol's leaf stands at its own index of the arena (R111). -/
theorem builtNode_leaf {freq : List Freq} {sym : Nat} {f : Freq} (h : freq[sym]? = some f) :
    (builtNode freq)[sym]? = some (leafNode f) := by
  have hleaf : (leaves freq)[sym]? = some (leafNode f) := by rw [leaves, List.getElem?_map, h, Option.map_some]
  rw [builtNode, List.getElem?_append_left (List.getElem?_eq_some_iff.mp hleaf).1, hleaf]

/-- Bit `d` of a path's entry is the path's branch at depth `d`, and 0 beyond the path (R84, R116). -/
theorem entryOf_getLsbD {p : List Bool} (h : p.length ≤ 32) (d : Nat) :
    (entryOf p).bits.getLsbD d = p.getD d false := by
  rw [entryOf, BitVec.getLsbD_ofNat, testBit_bitsValue]
  by_cases hd : d < 32
  · rw [decide_eq_true hd, Bool.true_and]
  · rw [decide_eq_false hd, Bool.false_and, List.getD_eq_default _ _ (by omega)]

/-- Settles O14: the tables are there, and the update that loads them touches only the tables, `READY`, `RES` and the
builder's registers. -/
theorem initCompletes : Obligations.InitCompletes := by
  intro s h
  obtain ⟨x, hx, run⟩ := execInit_of_inRange h
  obtain ⟨hnode, hcode⟩ := buildTables_lengths h.length hx
  obtain ⟨-, -, hroot, -⟩ := (buildTables_eq_some h.length).mp hx
  exact ⟨_, run, rfl, rfl, hroot, hnode, hcode, hx, rfl, ⟨fun _ => rfl, rfl, fun _ => rfl, rfl⟩, ⟨rfl, rfl⟩, ⟨rfl, rfl⟩,
    rfl, rfl⟩

/-- Settles O16: one clause for each outcome INIT has. -/
theorem initWrongLengthIsConfigurationError : Obligations.InitWrongLengthIsConfigurationError := by
  refine ⟨fun s h => ⟨_, execInit_of_wrongLength h, rfl⟩, fun s t h run => ?_⟩
  obtain ⟨x, -, rfl⟩ := execInit_next_of_length h run
  rfl

/-- Settles O17: the arena begins with the leaves. -/
theorem initMakesALeafPerSymbol : Obligations.InitMakesALeafPerSymbol := by
  intro s h
  obtain ⟨x, hx, run⟩ := execInit_of_inRange h
  obtain ⟨-, hnode, -, -⟩ := (buildTables_eq_some h.length).mp hx
  refine ⟨_, run, fun sym hsym => ?_⟩
  have hf := List.getElem?_eq_getElem (hsym.trans_eq h.length.symm)
  exact ⟨_, hf, (congrArg (·[sym]?) hnode).trans (builtNode_leaf hf)⟩

/-- Settles O19: what `ASSIGN` writes for a symbol is the entry of the path to its leaf. -/
theorem initAssignsEachLeafItsPath : Obligations.InitAssignsEachLeafItsPath := by
  intro s h
  obtain ⟨x, hx, run⟩ := execInit_of_inRange h
  obtain ⟨-, -, hroot, -⟩ := (buildTables_eq_some h.length).mp hx
  refine ⟨_, run, fun sym hsym => ?_⟩
  obtain ⟨p, hp, -, hle, hc⟩ := (codeOk_of_build h.length hx).path sym (Nat.le_of_lt_succ hsym)
  refine ⟨entryOf p, p, hc, (congrArg (follow x.node p) hroot).trans hp, entryOf_len hle, fun d hd => ?_, fun d hd => ?_⟩
  · rw [entryOf_getLsbD hle, List.getD_eq_getElem _ _ hd, List.getElem?_eq_getElem hd]
  · rw [entryOf_getLsbD hle, List.getD_eq_default _ _ hd]

/-- Settles O22: the tables are a function of `FREQ`, which INIT leaves as it is, and COMPRESS answers by `CODE`. -/
theorem initIsDeterministic : Obligations.InitIsDeterministic := by
  refine ⟨fun s t h run => ?_, fun s s' t t' hfreq h run run' => ?_⟩
  · obtain ⟨x, hx, rfl⟩ := execInit_next_of_length h run
    exact ⟨_, execInit_of_buildTables (x := x) h hx, rfl, rfl, rfl, rfl⟩
  · obtain ⟨x, hx, rfl⟩ := execInit_next_of_length h run
    obtain ⟨x', hx', rfl⟩ := execInit_next_of_length (hfreq ▸ h) run'
    obtain rfl : x = x' := Option.some.inj (hx.symm.trans (hfreq ▸ hx'))
    refine ⟨rfl, rfl, rfl, fun d u hmax compressed => ?_⟩
    have hrel := execCompress_sameAnswer (s := hostWriteIn d (releaseBuilder (succeed (loadTables x s))))
      (s' := hostWriteIn d (releaseBuilder (succeed (loadTables x s')))) rfl rfl rfl rfl hmax.symm
    obtain ⟨u', compressed', hsame⟩ := hrel.exists_next compressed
    have ⟨hres, hlen, _⟩ := hsame
    exact ⟨u', compressed', hres, hlen, hsame.outputBytes⟩

/-- Settles O23: the reset state's `FREQ` is the default one, whose tables are the ones written out. -/
theorem initFromResetBuildsTheDefaultTables : Obligations.InitFromResetBuildsTheDefaultTables :=
  ⟨_, execInit_of_buildTables (s := State.reset) defaultFreq_length buildTables_default, rfl, rfl, rfl, rfl⟩

end Sys2Proof.Machine
end

section
/-! SUPPORT. Every internal node is made of the two smallest live nodes (O18). When a node is made, `LIVE` of the statement is
the builder's `LIVE` (`Forest.isLive`) and the order of the statement is the builder's order on it; later nodes change
neither. -/

namespace Sys2Proof.Machine

/-- Node `n` is made of the two smallest live nodes, the smallest as `c0`, with their frequencies added (R112 to R114). -/
def MergesTwoSmallest (node : List Node) (n : Nat) : Prop :=
  ∃ nd x y, node[n]? = some nd ∧ node[nd.c0.toNat]? = some x ∧ node[nd.c1.toNat]? = some y ∧
    isLive node n nd.c0.toNat ∧ isLive node n nd.c1.toNat ∧ nd.c0 ≠ nd.c1 ∧ nd.f.toNat = x.f.toNat + y.f.toNat ∧
    (∀ m, isLive node n m → m ≠ nd.c0.toNat → smallerNode node nd.c0.toNat m) ∧
    (∀ m, isLive node n m → m ≠ nd.c0.toNat → m ≠ nd.c1.toNat → smallerNode node nd.c1.toNat m)

/-- A live node carries its frequency in the arena, whatever nodes come later. -/
theorem FreqOk.freq_append {pre live} (h : FreqOk pre live) (post : List Node) {x : LiveNode} (hx : x ∈ live) :
    ∃ nd, (pre ++ post)[x.n]? = some nd ∧ nd.f.toNat = x.f := by
  obtain ⟨nd, hnd, hf⟩ := h.freq x hx
  exact ⟨nd, by rw [List.getElem?_append_left (List.getElem?_eq_some_iff.mp hnd).1, hnd], hf⟩

/-- The builder's order on live nodes is the order of R113 on the arena. -/
theorem FreqOk.smallerNode {pre live} (h : FreqOk pre live) (post : List Node) {x y : LiveNode} (hx : x ∈ live)
    (hy : y ∈ live) (hxy : smaller x y = true) : smallerNode (pre ++ post) x.n y.n := by
  obtain ⟨nx, hnx, hfx⟩ := h.freq_append post hx
  obtain ⟨ny, hny, hfy⟩ := h.freq_append post hy
  exact ⟨nx, ny, hnx, hny, by rw [hfx, hfy]; exact (smaller_iff x y).mp hxy⟩

/-- A merge (R114) makes its node of the two smallest: the first selected is smaller than all that is left then, the second
smaller than all that is left of that. -/
theorem Forest.mergesTwoSmallest {pre live live1 live2} {a b : LiveNode} (hF : Forest pre live) (hq : FreqOk pre live)
    (hl : pre.length ≤ 512) (h1 : takeMin live = some (a, live1)) (h2 : takeMin live1 = some (b, live2))
    (post : List Node) : MergesTwoSmallest (pre ++ mergeNode a b :: post) pre.length := by
  have p1 := takeMin_perm h1
  have p2 := takeMin_perm h2
  have hnd : ((a :: live1).map LiveNode.n).Nodup := (p1.map _).nodup_iff.mpr hF.nodup
  obtain ⟨hfresh, hnd1⟩ := List.nodup_cons.mp hnd
  have ha : a ∈ live := p1.mem_iff.mp List.mem_cons_self
  have hb1 : b ∈ live1 := p2.mem_iff.mp List.mem_cons_self
  have hb : b ∈ live := p1.mem_iff.mp (List.mem_cons_of_mem a hb1)
  have ta : (mergeNode a b).c0.toNat = a.n := toNat_ofNat10 (by have := hF.lt ha; omega)
  have tb : (mergeNode a b).c1.toNat = b.n := toNat_ofNat10 (by have := hF.lt hb; omega)
  obtain ⟨x, hx, hxf⟩ := hq.freq_append (mergeNode a b :: post) ha
  obtain ⟨y, hy, hyf⟩ := hq.freq_append (mergeNode a b :: post) hb
  have live1_of {z : LiveNode} (hz : z ∈ live) (hza : z.n ≠ a.n) : z ∈ live1 :=
    List.mem_of_ne_of_mem (fun e => hza (congrArg LiveNode.n e)) (p1.mem_iff.mpr hz)
  have live2_of {z : LiveNode} (hz : z ∈ live1) (hzb : z.n ≠ b.n) : z ∈ live2 :=
    List.mem_of_ne_of_mem (fun e => hzb (congrArg LiveNode.n e)) (p2.mem_iff.mpr hz)
  refine ⟨mergeNode a b, x, y, by simp, by rw [ta, hx], by rw [tb, hy], ?_⟩
  simp only [hF.isLive, ta, tb]
  refine ⟨⟨a, ha, rfl⟩, ⟨b, hb, rfl⟩, fun e => ?_, by rw [(hq.merge hF h1 h2).1, hxf, hyf], ?_, ?_⟩
  · have hab : a.n = b.n := by rw [← ta, ← tb, e]
    exact hfresh (hab ▸ List.mem_map_of_mem hb1)
  · rintro _ ⟨z, hz, rfl⟩ hza
    exact hq.smallerNode _ ha hz (takeMin_min hF.nodup h1 z (live1_of hz hza))
  · rintro _ ⟨z, hz, rfl⟩ hza hzb
    exact hq.smallerNode _ hb hz (takeMin_min hnd1 h2 z (live2_of (live1_of hz hza) hzb))

/-- Every node the selection loop makes is made of the two smallest. -/
theorem mergeLoop_mergesTwoSmallest (k : Nat) {pre live} (hF : Forest pre live) (hq : FreqOk pre live)
    (hl : live.length = k + 1) (hk : pre.length + k = 513) {n : Nat} (hn : pre.length ≤ n) (hn' : n ≤ 512) :
    MergesTwoSmallest (pre ++ (mergeLoop k pre.length live).1) n := by
  induction k generalizing pre live with
  | zero => omega
  | succ k ih =>
    obtain ⟨a, b, live1, live2, h1, h2, he⟩ := mergeLoop_succ (k := k) (nn := pre.length) (live := live) (by omega)
    have l1 := takeMin_length h1
    have l2 := takeMin_length h2
    rw [he]
    rcases Nat.eq_or_lt_of_le hn with rfl | hlt
    · exact hF.mergesTwoSmallest hq hn' h1 h2 _
    · have := ih (hF.merge (by omega) h1 h2) (hq.merge hF h1 h2).2 (by simp; omega) (by simp; omega) (by simpa using hlt)
      simpa using this

theorem builtNode_mergesTwoSmallest {freq : List Freq} (h : freq.length = Config.nsym)
    (hsum : (freq.map BitVec.toNat).sum < 2 ^ 32) {n : Nat} (hn : 257 ≤ n) (hn' : n ≤ 512) :
    MergesTwoSmallest (builtNode freq) n := by
  have hl : (leaves freq).length = 257 := by rw [leaves, List.length_map, h]; rfl
  have := mergeLoop_mergesTwoSmallest 256 (leaves_forest h) (leaves_freqOk hsum) (by rw [liveFrom_length, h]; rfl)
    (by rw [hl]) (hl.trans_le hn) hn'
  rwa [hl] at this

/-- Settles O18: by induction on the selection loop, with the laws of the arena so far. -/
theorem initMergesTheTwoSmallest : Obligations.InitMergesTheTwoSmallest := by
  intro s h
  obtain ⟨x, hx, run⟩ := execInit_of_inRange h
  obtain ⟨-, hnode, -, -⟩ := (buildTables_eq_some h.length).mp hx
  refine ⟨_, run, (buildTables_lengths h.length hx).1, fun n hn hn' => ?_⟩
  change MergesTwoSmallest x.node n
  rw [hnode]
  exact builtNode_mergesTwoSmallest h.length h.sum hn hn'

end Sys2Proof.Machine
end

section
/-! SUPPORT. What COMPRESS writes (O24 to O26, O28, O29). Between two `PUT`s the encoder holds the stream of bits it was
given in two parts: whole bytes in `OUT`, and fewer than eight pending bits in `ACC` (R142, R147). Each operation is
told once, with the room it needs: it answers where the bytes fit, and is refused where they do not (R217). -/

namespace Sys2Proof.Machine

/-! ## Writing within a capacity -/

/-- The outcome of writing `OUT` up to `n` bytes: a next state with `P` where they fit, a refusal where not (R217). -/
def Writes (cap : Option Nat) (n : Nat) (P : State → Prop) (o : Host.Outcome State Fault Refusal) : Prop :=
  (fits n cap = true ∧ ∃ t, o = .next t ∧ P t) ∨ (fits n cap = false ∧ o = .refused .outputOverflow)

section Writes

variable {cap : Option Nat} {m n : Nat} {P Q : State → Prop} {t : State} {o : Host.Outcome State Fault Refusal}

theorem Writes.next (h : fits n cap = true) (ht : P t) : Writes cap n P (.next t) :=
  .inl ⟨h, t, rfl, ht⟩

/-- Two writes in a row need the room of the second. -/
theorem Writes.andThen {f : State → Host.Outcome State Fault Refusal} (h : Writes cap m P o) (hmn : m ≤ n)
    (hf : ∀ t, P t → Writes cap n Q (f t)) : Writes cap n Q (andThen o f) := by
  rcases h with ⟨-, t, rfl, ht⟩ | ⟨hm, rfl⟩
  · exact hf t ht
  · exact .inr ⟨Bool.eq_false_iff.mpr fun hn => Bool.eq_false_iff.mp hm (fits_mono hmn hn), rfl⟩

theorem Writes.mono (h : Writes cap n P o) (hPQ : ∀ t, fits n cap = true → P t → Q t) : Writes cap n Q o :=
  h.imp (fun ⟨hn, t, ho, ht⟩ => ⟨hn, t, ho, hPQ t hn ht⟩) id

/-- A last step that writes nothing to `OUT` needs no more room. -/
theorem Writes.andThen_next {f : State → State} (h : Writes cap n P o) (hf : ∀ t, P t → Q (f t)) :
    Writes cap n Q (Machine.andThen o fun t => .next (f t)) := by
  rcases h with ⟨hn, t, rfl, ht⟩ | ⟨hn, rfl⟩
  · exact .next hn (hf t ht)
  · exact .inr ⟨hn, rfl⟩

/-- Where there is room a write answers. -/
theorem Writes.exists_next (h : Writes cap n P o) (hn : fits n cap = true) : ∃ t, o = .next t ∧ P t :=
  h.elim And.right fun ⟨hno, _⟩ => absurd (hn.symm.trans hno) Bool.noConfusion

/-- A write that answers has done what it does. -/
theorem Writes.of_next (h : Writes cap n P (.next t)) : P t := by
  rcases h with ⟨-, t, ⟨⟩, ht⟩ | ⟨-, ⟨⟩⟩
  exact ht

theorem emitByte_writes (v : Byte) (s : State) :
    Writes s.inst.outMax (s.outLen + 1) (fun t => t = s.append v) (emitByte v s) := by
  unfold emitByte
  split
  case isTrue hroom => exact .next hroom rfl
  case isFalse hfull => exact .inr ⟨Bool.eq_false_iff.mpr hfull, rfl⟩

end Writes

/-! ## The stream in two parts -/

/-- From `s` the encoder has come to `t`, with the bytes `bs` in `OUT`, within its capacity, and the bits `p`
pending in `ACC`. -/
def Encoded (s : State) (bs : List Byte) (p : List Bool) (t : State) : Prop :=
  EncoderFrame s t ∧ fits bs.length s.inst.outMax = true ∧ t.outputBytes = some bs ∧ t.acc.toNat = bitsValue p ∧
    t.bc.toNat = p.length

section Encoded

variable {s t : State} {bs : List Byte} {a p q : List Bool}

theorem startEncoder_encoded (s : State) : Encoded s [] [] (startEncoder s) :=
  ⟨rfl, fits_zero _, rfl, rfl, rfl⟩

/-- The bytes read from `OUT` are as many as `OUT_LEN` says (R29). -/
theorem outputBytes_length {t : State} {bs : List Byte} (h : t.outputBytes = some bs) : t.outLen = bs.length :=
  ((Memory.bytes_eq_some_iff _ _ _ _).mp h).1.symm

theorem EncoderFrame.inst_code (h : EncoderFrame s t) : t.inst = s.inst ∧ t.code = s.code :=
  have ⟨hinst, _, _, hcode, _⟩ := h.sameTablesAndInput
  ⟨hinst, hcode⟩

/-- `ACC[7:0]` goes out: the first eight pending bits, or all of them and the pad (R142, R144). -/
theorem Encoded.emit (h : Encoded s bs p t) :
    Writes s.inst.outMax (bs.length + 1) (Encoded s (bs ++ [BitVec.ofNat 8 (bitsValue p)]) p)
      (emitByte (t.acc.extractLsb' 0 8) t) := by
  obtain ⟨hframe, -, hwritten, hacc, hbc⟩ := h
  have hbyte : t.acc.extractLsb' 0 8 = BitVec.ofNat 8 (bitsValue p) := by
    rw [← hacc]
    rfl
  have ⟨hinst, _⟩ := hframe.inst_code
  have hwrites := emitByte_writes (t.acc.extractLsb' 0 8) t
  rw [outputBytes_length hwritten, hinst] at hwrites
  refine hwrites.mono ?_
  rintro _ hroom rfl
  exact ⟨hframe.trans (append_encoderFrame _ t), by rwa [List.length_append],
    hbyte ▸ Memory.bytes_append hwritten _, hacc, hbc⟩

/-- Eight bits leave `ACC` at its low end (R140). -/
theorem Encoded.dropByte (ha : a.length = 8) (h : Encoded s bs (a ++ p) t) : Encoded s bs p t.dropByte := by
  obtain ⟨hframe, hroom, hwritten, hacc, hbc⟩ := h
  refine ⟨hframe.trans (dropByte_encoderFrame t), hroom, hwritten, ?_, ?_⟩
  · have hlow := bitsValue_lt a
    rw [ha] at hlow
    rw [dropByte_acc, BitVec.toNat_ushiftRight, hacc, bitsValue_append, ha, Nat.shiftRight_eq_div_pow]
    omega
  · rw [List.length_append, ha] at hbc
    rw [dropByte_bc]
    bv_omega

/-- A code word of at most 32 bits above fewer than eight pending ones: the 39 bits of `ACC` hold both (R147). -/
theorem toNat_or_shifted_code {acc : BitVec 39} (hacc : acc.toNat = bitsValue p) (hp : p.length < 8)
    (hq : q.length ≤ 32) :
    (acc ||| ((entryOf q).bits.zeroExtend 39 <<< p.length)).toNat = bitsValue (p ++ q) := by
  have hwidth : bitsValue q * 2 ^ p.length < 2 ^ 39 := calc
    bitsValue q * 2 ^ p.length < 2 ^ q.length * 2 ^ p.length :=
      Nat.mul_lt_mul_of_pos_right (bitsValue_lt q) (Nat.two_pow_pos _)
    _ = 2 ^ (q.length + p.length) := (Nat.pow_add ..).symm
    _ ≤ 2 ^ 39 := Nat.pow_le_pow_right (by decide) (by omega)
  have hentry : ((entryOf q).bits.zeroExtend 39).toNat = bitsValue q := by
    have hlt := (bitsValue_lt q).trans_le (Nat.pow_le_pow_right (by decide) hq)
    rw [entryOf, BitVec.toNat_setWidth, BitVec.toNat_ofNat, Nat.mod_eq_of_lt hlt, Nat.mod_eq_of_lt (by omega)]
  calc (acc ||| ((entryOf q).bits.zeroExtend 39 <<< p.length)).toNat
      = bitsValue p ||| bitsValue q <<< p.length := by
        rw [BitVec.toNat_or, BitVec.toNat_shiftLeft, hentry, hacc, Nat.mod_eq_of_lt (by rwa [Nat.shiftLeft_eq])]
    _ = bitsValue q <<< p.length + bitsValue p := by
        rw [Nat.or_comm, Nat.shiftLeft_add_eq_or_of_lt (bitsValue_lt p)]
    _ = bitsValue (p ++ q) := by rw [bitsValue_append, Nat.shiftLeft_eq, Nat.mul_comm, Nat.add_comm]

/-- A code word joins the pending bits at their high end (R142). -/
theorem Encoded.addCode (h : Encoded s bs p t) (hp : p.length < 8) (hq : q.length ≤ 32) :
    Encoded s bs (p ++ q) (t.addCode (entryOf q)) := by
  obtain ⟨hframe, hroom, hwritten, hacc, hbc⟩ := h
  refine ⟨hframe.trans (addCode_encoderFrame _ t), hroom, hwritten, ?_, ?_⟩
  · rw [addCode_acc, hbc, toNat_or_shifted_code hacc hp hq]
  · rw [addCode_bc, BitVec.toNat_add, hbc, entryOf_len hq, List.length_append]
    omega

/-! ## `PUT`, the pad, and the command -/

/-- From `s` the encoder has come to `t` with the stream `B` taken in and fewer than eight bits pending. -/
def TakenIn (s : State) (B : List Bool) (t : State) : Prop :=
  ∃ bs p, Encoded s bs p t ∧ p.length < 8 ∧ bytesBits bs ++ p = B

/-- The low byte of a bit list is that of its first eight bits (R10). -/
theorem ofNat_bitsValue_append {a : List Bool} (ha : a.length = 8) (q : List Bool) :
    BitVec.ofNat 8 (bitsValue (a ++ q)) = BitVec.ofNat 8 (bitsValue a) := by
  rw [bitsValue_append, ha]
  exact BitVec.eq_of_toNat_eq (by rw [BitVec.toNat_ofNat, BitVec.toNat_ofNat, Nat.add_mul_mod_self_left])

theorem bytesBits_append_byte {a : List Bool} (ha : a.length = 8) (bs : List Byte) :
    bytesBits (bs ++ [BitVec.ofNat 8 (bitsValue a)]) = bytesBits bs ++ a := by
  have hbyte := byteBits_bitsValue ha.le
  rw [ha, Nat.sub_self, List.replicate_zero, List.append_nil] at hbyte
  rw [bytesBits_append, bytesBits_cons, hbyte]
  exact congrArg _ (List.append_nil a)

/-- The flush loop sends every whole byte of the stream out (R142). -/
theorem Encoded.flush (h : Encoded s bs p t) :
    Writes s.inst.outMax (bs.length + p.length / 8) (TakenIn s (bytesBits bs ++ p)) (flush (p.length / 8) t) := by
  generalize hn : p.length / 8 = n
  induction n generalizing t bs p with
  | zero =>
    have ⟨_, hroom, _⟩ := h
    exact .next hroom ⟨bs, p, h, by omega, rfl⟩
  | succ n ih =>
    obtain ⟨a, q, rfl, ha⟩ : ∃ a q, p = a ++ q ∧ a.length = 8 :=
      ⟨p.take 8, p.drop 8, (List.take_append_drop 8 p).symm, List.length_take_of_le (by omega)⟩
    have hq : q.length / 8 = n := by
      rw [List.length_append] at hn
      omega
    refine h.emit.andThen (by omega) fun _ h1 => ?_
    have hrest := ih (h1.dropByte ha) hq
    rwa [ofNat_bitsValue_append ha, bytesBits_append_byte ha, List.append_assoc, List.length_append,
      List.length_singleton, Nat.add_assoc, Nat.add_comm 1 n] at hrest

/-- A symbol the code table holds is one of its paths (R116). -/
theorem CodeOk.entry {node code} (h : CodeOk node code) {sym : Nat} (hs : sym ≤ 256) :
    ∃ p, p.length ≤ 32 ∧ code[sym]? = some (entryOf p) ∧ codeOf code sym = p := by
  obtain ⟨p, -, -, hp, hc⟩ := h.path sym hs
  exact ⟨p, hp, hc, by rw [codeOf, hc]; exact entryOf_stream hp⟩

/-- `PUT` takes the symbol's code word into the stream (R142). -/
theorem TakenIn.put {B : List Bool} (hT : CodeOk s.node s.code) (h : TakenIn s B t) {sym : Nat}
    (hs : sym ≤ 256) : Writes s.inst.outMax ((B ++ codeOf s.code sym).length / 8) (TakenIn s (B ++ codeOf s.code sym))
      (put sym t) := by
  obtain ⟨bs, p, he, hp, rfl⟩ := h
  obtain ⟨q, hq, hentry, hcode⟩ := hT.entry hs
  have hadd := he.addCode hp hq
  have ⟨hframe, _, _, _, hbc⟩ := hadd
  have ⟨_, htable⟩ := hframe.inst_code
  have hput : Machine.put sym t = Machine.flush ((p ++ q).length / 8) (t.addCode (entryOf q)) := by
    rw [Machine.put, State.codeAt, show t.code = s.code from htable, hentry]
    dsimp only
    rw [hbc]
  have hlen : (bytesBits bs ++ (p ++ q)).length / 8 = bs.length + (p ++ q).length / 8 := by
    rw [List.length_append, bytesBits_length]
    omega
  rw [hput, hcode, List.append_assoc, hlen]
  exact hadd.flush

/-- `PUT` of each byte of a list (R142). -/
theorem TakenIn.putAll {B : List Bool} (hT : CodeOk s.node s.code) (h : TakenIn s B t) (d : List Byte) :
    Writes s.inst.outMax ((B ++ d.flatMap fun b => codeOf s.code b.toNat).length / 8)
      (TakenIn s (B ++ d.flatMap fun b => codeOf s.code b.toNat)) (putAll d t) := by
  induction d generalizing t B with
  | nil =>
    obtain ⟨bs, p, he, hp, rfl⟩ := h
    have ⟨_, hroom, _⟩ := he
    rw [List.flatMap_nil, List.append_nil]
    refine .next ?_ ⟨bs, p, he, hp, rfl⟩
    rw [List.length_append, bytesBits_length]
    exact fits_mono (by omega) hroom
  | cons b d ih =>
    have hb := b.isLt
    rw [List.flatMap_cons, ← List.append_assoc]
    exact (h.put hT (by omega)).andThen (Nat.div_le_div_right (List.prefix_append _ _).length_le) fun _ h1 => ih h1

theorem bitsValue_byteBits (b : Byte) : BitVec.ofNat 8 (bitsValue (byteBits b)) = b := by
  refine BitVec.eq_of_getLsbD_eq fun i hi => ?_
  rw [BitVec.getLsbD_ofNat, testBit_bitsValue, List.getD_eq_getElem?_getD, byteBits, bitsLsb_getElem? hi]
  simp [hi, BitVec.getLsbD]

/-- Packing whole bytes and a rest packs the rest behind them (R88). -/
theorem packBits_bytesBits_append (bs : List Byte) (p : List Bool) :
    packBits (bytesBits bs ++ p) = bs ++ packBits p := by
  induction bs with
  | nil => rfl
  | cons b bs ih =>
    rw [bytesBits_cons, List.append_assoc, packBits_byte (byteBits_length b), bitsValue_byteBits, ih, List.cons_append]

/-- The pad fills up the last byte, and adds none where no bits are pending (R144, D12). -/
theorem TakenIn.padLast {B : List Bool} (h : TakenIn s B t) :
    Writes s.inst.outMax (packBits B).length (fun u => EncoderFrame s u ∧ u.outputBytes = some (packBits B))
      (padLast t) := by
  obtain ⟨bs, p, he, hp, rfl⟩ := h
  have ⟨hframe, hroom, hwritten, _, hbc⟩ := he
  rw [packBits_bytesBits_append, Machine.padLast]
  split
  case isTrue hnone =>
    rw [hnone] at hbc
    obtain rfl : p = [] := List.length_eq_zero_iff.mp hbc.symm
    rw [packBits, List.append_nil]
    exact .next hroom ⟨hframe, hwritten⟩
  case isFalse hsome =>
    have hne : p ≠ [] := by
      rintro rfl
      exact hsome (BitVec.eq_of_toNat_eq hbc)
    rw [packBits_short hne hp, List.length_append, List.length_singleton]
    exact he.emit.mono fun u _ ⟨hframe', _, hwritten', _⟩ => ⟨hframe', hwritten'⟩

end Encoded

/-- What COMPRESS leaves behind when it ends `OK` (R140, R65). `draws` is the model's (log 6). -/
def Compressed (s : State) (d : List Byte) (t : State) : Prop :=
  t.res = .ok ∧ t.outLen = (packBits (bitString s.code d)).length ∧
    t.outputBytes = some (packBits (bitString s.code d)) ∧
    t = { s with res := .ok, out := t.out, outLen := t.outLen, acc := t.acc, bc := t.bc, draws := t.draws }

/-- COMPRESS on a code made of the paths of a tree: `P(B(IN))` where it fits, a refusal where not (R140, R217). -/
theorem execCompress_writes {s : State} {d : List Byte} (hT : CodeOk s.node s.code) (hready : s.ready = true)
    (hin : s.inputBytes = some d) :
    Writes s.inst.outMax (packBits (bitString s.code d)).length (Compressed s d) (exec .compress s) := by
  have hstart : TakenIn s [] (startEncoder s) := ⟨[], [], startEncoder_encoded s, by decide, rfl⟩
  have hlast : (bitString s.code d).length / 8 ≤ (packBits (bitString s.code d)).length := by
    rw [packBits_length]
    omega
  change Writes _ _ _ (execCompress s)
  rw [execCompress, if_pos hready, hin]
  refine (hstart.putAll hT d).andThen (hlast.trans' ?_) fun _ h1 => (h1.put hT (sym := 256) le_rfl).andThen hlast
    fun _ h2 => h2.padLast.andThen_next fun s3 ⟨hframe, hwritten⟩ => ?_
  · exact Nat.div_le_div_right (List.prefix_append _ _).length_le
  · refine ⟨rfl, outputBytes_length hwritten, hwritten, ?_⟩
    rw [show s3 = _ from hframe]
    rfl

/-- Settles O25: the encoder keeps its stream in two parts, and the pad joins them. -/
theorem compressWritesThePackedBitString : Obligations.CompressWritesThePackedBitString := by
  intro s d hinv hready hin hroom
  exact (execCompress_writes (Tree.of_inv hinv hready).code hready hin).exists_next hroom

/-- Settles O26: an answer of COMPRESS is `P(B(IN))`, and EOS alone takes a bit. -/
theorem compressLengthIsTheBitTotal : Obligations.CompressLengthIsTheBitTotal := by
  intro s t d hinv hready hin run
  have hcode := (Tree.of_inv hinv hready).code
  obtain ⟨-, hlen, -⟩ := Writes.of_next (run ▸ execCompress_writes hcode hready hin)
  rw [packBits_length, bitString, List.length_append, List.length_flatMap] at hlen
  have ⟨_, (heos : 1 ≤ (codeOf s.code Config.eos.toNat).length), _⟩ := hcode.stream (s := 256) le_rfl
  exact ⟨by omega, hlen⟩

/-- Settles O29: two runs side by side agree on the encoder's registers and `OUT`. -/
theorem compressDependsOnCodeAndInputOnly : Obligations.CompressDependsOnCodeAndInputOnly := by
  intro s s' t hready hcode hinp hinLen hmax run
  obtain ⟨t', run', hsame⟩ := (execCompress_sameAnswer hready hcode hinp hinLen hmax).exists_next run
  have ⟨hres, hlen, _⟩ := hsame
  exact ⟨t', run', hres, hlen, hsame.outputBytes⟩

/-- R145: COMPRESS with `READY = 0`. -/
theorem execCompress_notReady {s : State} (h : s.ready = false) :
    execCompress s = .next (raise .configurationError s) := by
  rw [execCompress, h]
  rfl

/-- Settles O24: the failure writes `RES`, `OUT_LEN` and `OUT` only (R186). -/
theorem compressNotReady : Obligations.CompressNotReady :=
  fun _ h => ⟨_, execCompress_notReady h, raise_eq _ _⟩

/-- COMPRESS on the default tables, with room for any output. -/
theorem execCompress_default {d out : List Byte} (h : packBits (bitString defaultCode d) = out) :
    ∃ t, exec .compress (hostWriteIn d (loadTables defaultTables State.reset)) = .next t ∧ t.res = .ok ∧
      t.outLen = out.length ∧ t.outputBytes = some out := by
  obtain ⟨t, run, hres, hlen, hwritten, -⟩ :=
    (execCompress_writes (s := hostWriteIn d (loadTables defaultTables State.reset)) defaultTables_codeOk rfl
      (Memory.bytes_ofBytes d)).exists_next rfl
  exact ⟨t, run, hres, hlen.trans (congrArg List.length h), hwritten.trans (congrArg some h)⟩

/-- `P(B("hello world"))` by the code table of R99 (R150). -/
theorem hello_world_packed :
    packBits (bitString defaultCode [104, 101, 108, 108, 111, 32, 119, 111, 114, 108, 100]) =
      [174, 149, 19, 92, 9, 87, 194, 22, 177, 86, 220, 218, 34, 56, 185, 18, 156, 168, 184, 1] := by decide

/-- EOS alone, and one pad bit (R146). -/
theorem no_bytes_packed : packBits (bitString defaultCode []) = [138, 27] := by decide

/-- Settles O28: COMPRESS gives `P(B(IN))`, for these two inputs worked out above. -/
theorem compressReferenceVectors : Obligations.CompressReferenceVectors :=
  ⟨execCompress_default hello_world_packed, execCompress_default no_bytes_packed⟩

end Sys2Proof.Machine
end

section
/-! SUPPORT. What DECOMPRESS makes of its input (O30 to O34, O37). Every bit string begins with `B(d)` for some `d`, or spells
some bytes and stops inside a code word (R95). Given room, the walk ends `OK` on the first kind and goes on to the end of the
input on the second. -/

namespace Sys2Proof.Machine

/-! ## How a bit string reads in a code -/

section Reading

variable {node : List Node} {code : List CodeEntry}

theorem bitString_cons (code : List CodeEntry) (b : Byte) (d : List Byte) :
    bitString code (b :: d) = codeOf code b.toNat ++ bitString code d := by
  rw [bitString, List.flatMap_cons, List.append_assoc, bitString]

/-- The code word of the EOS leaf leads to it (R116). -/
theorem CodeOk.follow_eos (h : CodeOk node code) : follow node (codeOf code Config.eos.toNat) 512#10 = some Config.eos :=
  (h.stream (s := 256) le_rfl).1

/-- A path from the root to a leaf is the code word of its symbol (R116). -/
theorem CodeOk.eq_codeOf {p : List Bool} {l : NodeIdx} (h : CodeOk node code) (hl : l.toNat ≤ 256)
    (hp : follow node p 512#10 = some l) : p = codeOf code l.toNat := by
  refine h.arena.path_unique hp ?_
  rw [(h.stream hl).1, BitVec.ofNat_toNat, BitVec.setWidth_eq]

/-- A path that goes on has not reached a leaf (R25). -/
theorem Arena.internal_of_follow_append {p q : List Bool} {n m : NodeIdx} (hA : Arena node) (hq : q ≠ [])
    (h : follow node (p ++ q) n = some m) : ∃ k, follow node p n = some k ∧ 256 < k.toNat := by
  rw [follow_append, Option.bind_eq_some_iff] at h
  obtain ⟨k, hk, hkq⟩ := h
  refine ⟨k, hk, Nat.lt_of_not_le fun hleaf => ?_⟩
  rw [hA.follow_leaf hleaf, if_neg hq] at hkq
  cases hkq

/-- A bit string begins with a code word, or stops on an internal node (R95). -/
theorem CodeOk.code_prefix_or_internal (h : CodeOk node code) (bits : List Bool) :
    (∃ sym rest, sym ≤ 256 ∧ bits = codeOf code sym ++ rest) ∨ ∃ n, follow node bits 512#10 = some n ∧ 256 < n.toNat := by
  obtain ⟨p, l, hl, hp, ⟨rest, rfl⟩ | ⟨q, rfl⟩⟩ := h.arena.exists_leaf_along (n := 512#10) (by decide) bits
  · exact .inl ⟨l.toNat, rest, hl, by rw [← h.eq_codeOf hl hp]⟩
  · by_cases hq : q = []
    · rw [hq, List.append_nil] at hp
      exact .inl ⟨l.toNat, [], hl, by rw [← h.eq_codeOf hl hp, List.append_nil]⟩
    · exact .inr (h.arena.internal_of_follow_append hq hp)

/-- The bits are the code words of `d`, and then a way from the root that stops on an internal node. -/
def StopsInside (node : List Node) (code : List CodeEntry) (d : List Byte) (bits : List Bool) : Prop :=
  ∃ p n, bits = (d.flatMap fun b => codeOf code b.toNat) ++ p ∧ follow node p 512#10 = some n ∧ 256 < n.toNat

/-- One byte more in front. -/
theorem StopsInside.cons {d : List Byte} {bits : List Bool} (h : StopsInside node code d bits) (b : Byte) :
    StopsInside node code (b :: d) (codeOf code b.toNat ++ bits) := by
  obtain ⟨p, n, rfl, hp⟩ := h
  exact ⟨p, n, by rw [List.flatMap_cons, List.append_assoc], hp⟩

/-- Every bit string is read in one of two ways: up to a first EOS, or to its end (R95, R171). -/
theorem CodeOk.reads (h : CodeOk node code) (bits : List Bool) :
    (∃ d rest, bits = bitString code d ++ rest) ∨ ∃ d, StopsInside node code d bits := by
  rcases h.code_prefix_or_internal bits with ⟨sym, rest, hsym, hbits⟩ | hinside
  · rcases hsym.eq_or_lt with rfl | hlt
    · exact .inl ⟨[], rest, hbits⟩
    · obtain ⟨b, rfl⟩ : ∃ b : Byte, b.toNat = sym := ⟨BitVec.ofNat 8 sym, Nat.mod_eq_of_lt hlt⟩
      have hshorter : rest.length < bits.length := by
        have ⟨_, hlen, _⟩ := h.stream hsym
        rw [hbits, List.length_append]
        omega
      rcases h.reads rest with ⟨d, rest', hrest⟩ | ⟨d, hd⟩
      · exact .inl ⟨b :: d, rest', by rw [hbits, hrest, bitString_cons, List.append_assoc]⟩
      · exact .inr ⟨b :: d, hbits ▸ hd.cons b⟩
  · exact .inr ⟨[], bits, hinside.imp fun _ hn => ⟨rfl, hn⟩⟩
termination_by bits.length

/-- `B(d)` without its last bit stops inside the code word of EOS. -/
theorem CodeOk.stopsInside_dropLast (h : CodeOk node code) (d : List Byte) :
    StopsInside node code d (bitString code d).dropLast := by
  have ⟨_, (hlen : 1 ≤ (codeOf code Config.eos.toNat).length), _⟩ := h.stream (s := 256) le_rfl
  have hne : codeOf code Config.eos.toNat ≠ [] := List.length_pos_iff.mp hlen
  have hpath := h.follow_eos
  rw [← List.dropLast_append_getLast hne] at hpath
  obtain ⟨n, hn⟩ := h.arena.internal_of_follow_append (List.cons_ne_nil _ _) hpath
  exact ⟨_, n, List.dropLast_append_of_ne_nil hne, hn⟩

/-- Every byte takes a bit at least, so there are no more bytes than bits (R170). -/
theorem CodeOk.length_le_flatMap (h : CodeOk node code) (d : List Byte) :
    d.length ≤ (d.flatMap fun b => codeOf code b.toNat).length := by
  induction d with
  | nil => exact le_rfl
  | cons b d ih =>
    have hb := b.isLt
    have ⟨_, hlen, _⟩ := h.stream (s := b.toNat) (by omega)
    rw [List.flatMap_cons, List.length_append, List.length_cons]
    omega

theorem CodeOk.length_le_of_bitString {d : List Byte} {rest bits : List Bool} (h : CodeOk node code)
    (hbits : bits = bitString code d ++ rest) : d.length ≤ bits.length := by
  have hd := h.length_le_flatMap d
  rw [hbits, bitString, List.length_append, List.length_append]
  omega

theorem StopsInside.length_le {d : List Byte} {bits : List Bool} (h : CodeOk node code)
    (hbits : StopsInside node code d bits) : d.length ≤ bits.length := by
  obtain ⟨p, n, rfl, -⟩ := hbits
  rw [List.length_append]
  exact (h.length_le_flatMap d).trans (Nat.le_add_right _ _)

end Reading

/-! ## The walk over such bits -/

section Walks

variable {s : State} {d : List Byte} {bits rest : List Bool}

theorem countBits_spelled (bs : List Byte) (j k : Nat) (s : State) : (s.spelled bs j).countBits k = s.spelled bs (j + k) := by
  induction bs generalizing s with
  | nil => simp [State.spelled, State.countBits, Nat.add_assoc]
  | cons b bs ih => exact ih (s.append b)

/-- The state after spelling stands at the root of the same tree. -/
theorem spelled_atRoot (hT : Tree s) (hc : s.cur = s.root) (bs : List Byte) (k : Nat) :
    Tree (s.spelled bs k) ∧ (s.spelled bs k).cur = 512#10 ∧ (s.spelled bs k).node = s.node := by
  rw [spelled_frame]
  exact ⟨⟨hT.code, hT.root⟩, hc.trans hT.root, rfl⟩

/-- The walk over `B(d)` from the root ends `OK` with `d` appended, whatever follows (R164, R169). -/
theorem decodeBits_bitString (hT : Tree s) (hc : s.cur = s.root) (hf : fits (s.outLen + d.length) s.inst.outMax = true) :
    decodeBits (bitString s.code d ++ rest) s =
      .ended (.next (succeed (releaseDecoder (s.spelled d (bitString s.code d).length)))) := by
  refine decodeBits_append_of_ended ?_ rest
  obtain ⟨hT', hcur, hnode⟩ := spelled_atRoot hT hc d (d.flatMap fun b => codeOf s.code b.toNat).length
  have hpath := hT.code.follow_eos
  rw [← hnode, ← hcur] at hpath
  rw [bitString, decodeBits_append_of_going (decodeBits_bytes hT hc d hf),
    decodeBits_path hT' (by rw [hcur]; decide) (by rw [hcur]; decide) (by decide) hpath, countBits_spelled,
    List.length_append]
  rfl

/-- The walk over bits that stop inside a code word goes on (R165). -/
theorem decodeBits_stopsInside (hT : Tree s) (hc : s.cur = s.root) (hf : fits (s.outLen + d.length) s.inst.outMax = true)
    (hbits : StopsInside s.node s.code d bits) : ∃ u, decodeBits bits s = .going u := by
  obtain ⟨p, n, rfl, hp, hn⟩ := hbits
  obtain ⟨hT', hcur, hnode⟩ := spelled_atRoot hT hc d (d.flatMap fun b => codeOf s.code b.toNat).length
  rw [← hnode, ← hcur] at hp
  rw [decodeBits_append_of_going (decodeBits_bytes hT hc d hf)]
  exact ⟨_, decodeBits_inner hT' (by rw [hcur]; decide) (by rw [hcur]; decide) hn hp⟩

/-- A walk that goes on over some bits goes on over the first of them. -/
theorem decodeBits_going_of_append {p q : List Bool} {u : State} (h : decodeBits (p ++ q) s = .going u) :
    ∃ v, decodeBits p s = .going v := by
  cases hp : decodeBits p s with
  | going v => exact ⟨v, rfl⟩
  | ended o => cases (decodeBits_append_of_ended hp q).symm.trans h

/-! ## The command -/

theorem execDecompress_ready (hready : s.ready = true) (hin : s.inputBits = some bits) :
    exec .decompress s = endOfInput (decodeBits bits (startDecoder s)) := by
  change execDecompress s = _
  rw [execDecompress, if_pos hready, hin]

/-- What DECOMPRESS leaves behind when it ends `OK` (R160, R65). `phase` (log 1) and `draws` (log 6) are the model's. -/
def Decompressed (s : State) (d : List Byte) (t : State) : Prop :=
  t.res = .ok ∧ t.outLen = d.length ∧ t.outputBytes = some d ∧
    t = { s with res := .ok, out := t.out, outLen := t.outLen, cur := t.cur, k := t.k, phase := .idle, draws := t.draws }

/-- What DECOMPRESS leaves behind when its input ends too early (R165, R186). `phase` (log 1) and `draws` (log 6) are the
model's. -/
def Truncated (s t : State) : Prop :=
  t.res = .truncatedInput ∧ t.outLen = 0 ∧
    t = { s with res := .truncatedInput, out := t.out, outLen := 0, cur := t.cur, k := t.k, phase := .idle,
                 draws := t.draws }

theorem startDecoder_tree (hT : Tree s) : Tree (startDecoder s) := ⟨hT.code, hT.root⟩

/-- `OUT` is empty at the start (R161). -/
theorem startDecoder_fits {n : Nat} (h : fits n s.inst.outMax = true) :
    fits ((startDecoder s).outLen + n) (startDecoder s).inst.outMax = true := by
  rwa [startDecoder_outLen, startDecoder_inst, Nat.zero_add]

/-- The decoder that has spelled `d` and met EOS. -/
theorem succeed_spelled_decompressed (s : State) (d : List Byte) (k : Nat) :
    Decompressed s d (succeed (releaseDecoder ((startDecoder s).spelled d k))) := by
  have hwritten : ((startDecoder s).spelled d k).outputBytes = some d :=
    spelled_out d k (startDecoder s) (o := []) rfl
  refine ⟨rfl, outputBytes_length hwritten, hwritten, ?_⟩
  rw [spelled_frame]
  rfl

/-- DECOMPRESS on tables of a tree, on an input that begins with `B(d)` (R164). -/
theorem execDecompress_bitString (hT : Tree s) (hready : s.ready = true)
    (hin : s.inputBits = some (bitString s.code d ++ rest)) (hf : fits d.length s.inst.outMax = true) :
    ∃ t, exec .decompress s = .next t ∧ Decompressed s d t := by
  have hwalk := decodeBits_bitString (rest := rest) (startDecoder_tree hT) rfl (startDecoder_fits hf)
  refine ⟨_, ?_, succeed_spelled_decompressed s d (bitString s.code d).length⟩
  rw [execDecompress_ready hready hin]
  exact congrArg endOfInput hwalk

/-- DECOMPRESS on an input over which the walk goes on to the end (R165). -/
theorem execDecompress_truncated {u : State} (hready : s.ready = true) (hin : s.inputBits = some bits)
    (hwalk : decodeBits bits (startDecoder s) = .going u) : ∃ t, exec .decompress s = .next t ∧ Truncated s t := by
  refine ⟨raise .truncatedInput (releaseDecoder u), ?_, rfl, rfl, ?_⟩
  · rw [execDecompress_ready hready hin, hwalk]
    rfl
  · rw [show u = _ from decodeBits_going_frame hwalk]
    rfl

/-- The walk of the command over bits that stop inside a code word, with room for the bytes before it. -/
theorem decodeBits_startDecoder_going (hT : Tree s) (hf : fits d.length s.inst.outMax = true)
    (hbits : StopsInside s.node s.code d bits) : ∃ u, decodeBits bits (startDecoder s) = .going u :=
  decodeBits_stopsInside (startDecoder_tree hT) rfl (startDecoder_fits hf) hbits

end Walks

/-- Settles O31: the walk over `B(d)` spells `d` and ends there. -/
theorem decompressStopsAtEos : Obligations.DecompressStopsAtEos := by
  intro s d rest hinv hready hin hroom
  exact execDecompress_bitString (Tree.of_inv hinv hready) hready hin hroom

/-- Settles O32: the bits of what COMPRESS wrote are `B(b)` and the pad, and it left the tables as they were. -/
theorem roundTrip : Obligations.RoundTrip := by
  intro s t b hinv hready hin hroom run
  have hT := Tree.of_inv hinv hready
  obtain ⟨-, -, hwritten, -⟩ := Writes.of_next (run ▸ execCompress_writes hT.code hready hin)
  obtain ⟨hinst, hnode, hroot, hcode, hready', -, -⟩ := exec_sameTablesAndInput (.inl rfl) run
  have hT' : Tree (hostWriteIn (packBits (bitString s.code b)) t) :=
    ⟨by simpa only [hostWriteIn, hnode, hcode] using hT.code, hroot.trans hT.root⟩
  have hin' : (hostWriteIn (packBits (bitString s.code b)) t).inputBits =
      some (bitString t.code b ++ List.replicate ((8 - (bitString s.code b).length % 8) % 8) false) := by
    rw [hcode, ← bytesBits_packBits]
    exact congrArg (Option.map bytesBits) (Memory.bytes_ofBytes _)
  obtain ⟨u, run', hres, hlen, hout, -⟩ :=
    execDecompress_bitString hT' (hready'.trans hready) hin' (by simpa only [hostWriteIn, hinst] using hroom)
  exact ⟨_, u, hwritten, run', hres, hlen, hout⟩

/-- Settles O34: the two ways a bit string reads, each with room for its bytes. An input of the second kind does not begin with
a `B(d)`: the walk over it would have ended there. -/
theorem decompressIsTotal : Obligations.DecompressIsTotal := by
  intro s bits hinv hready hin hroom
  have hT := Tree.of_inv hinv hready
  have hlength : bits.length = 8 * s.inLen := by
    obtain ⟨bs, hbs, rfl⟩ := Option.map_eq_some_iff.mp hin
    rw [bytesBits_length, ((Memory.bytes_eq_some_iff _ _ _ _).mp hbs).1]
  rw [← hlength] at hroom ⊢
  rcases hT.code.reads bits with ⟨d, rest, hbits⟩ | ⟨d, hbits⟩
  · have hd := hT.code.length_le_of_bitString hbits
    obtain ⟨t, run, hres, hlen, hout, -⟩ := execDecompress_bitString hT hready (hbits ▸ hin) (fits_mono hd hroom)
    exact ⟨t, run, hlen.trans_le hd, .inl ⟨hres, d, rest, hbits, hout⟩⟩
  · obtain ⟨u, hwalk⟩ := decodeBits_startDecoder_going hT (fits_mono (hbits.length_le hT.code) hroom) hbits
    obtain ⟨t, run, hres, hlen, -⟩ := execDecompress_truncated hready hin hwalk
    refine ⟨t, run, by omega, .inr ⟨hres, hlen, fun d' rest hbits' => ?_⟩⟩
    obtain ⟨t', run', hres', -⟩ := execDecompress_bitString hT hready (hbits' ▸ hin)
      (fits_mono (hT.code.length_le_of_bitString hbits') hroom)
    cases run.symm.trans run'
    cases hres.symm.trans hres'

/-- Settles O33: the walk goes on over `B(d)` without its last bit, and so over any shorter part of it. -/
theorem decompressTruncatedInput : Obligations.DecompressTruncatedInput := by
  rintro s d bits hinv hready hin ⟨q, hq⟩ hne hroom
  have hT := Tree.of_inv hinv hready
  have hq' : q ≠ [] := by
    rintro rfl
    exact hne (by rw [← hq, List.append_nil])
  obtain ⟨u, hwalk⟩ := decodeBits_startDecoder_going hT hroom (hT.code.stopsInside_dropLast d)
  rw [← hq, List.dropLast_append_of_ne_nil hq'] at hwalk
  obtain ⟨v, hwalk'⟩ := decodeBits_going_of_append hwalk
  exact execDecompress_truncated hready hin hwalk'

/-- Settles O37: two runs side by side agree on the tree, on `OUT` and on the place in the tree. -/
theorem decompressDependsOnTreeAndInputOnly : Obligations.DecompressDependsOnTreeAndInputOnly := by
  intro s s' t hready hnode hroot hinp hinLen hmax run
  obtain ⟨t', run', hsame⟩ := (execDecompress_sameAnswer hready hnode hroot hinp hinLen hmax).exists_next run
  have ⟨hres, hlen, _⟩ := hsame
  exact ⟨t', run', hres, hlen, hsame.outputBytes⟩

/-- R167: DECOMPRESS with `READY = 0`. -/
theorem execDecompress_notReady {s : State} (h : s.ready = false) :
    execDecompress s = .next (raiseIdle .configurationError s) := by
  rw [execDecompress, h]
  rfl

/-- Settles O30: the failure writes `RES`, `OUT_LEN`, `OUT` and the phase only (R186). -/
theorem decompressNotReady : Obligations.DecompressNotReady :=
  fun _ h => ⟨_, execDecompress_notReady h, rfl⟩

end Sys2Proof.Machine
end

section
/-! SUPPORT. How a command ends (R180 to R187: O35, O36, O43, O44, O45). The last turn of the decoder's loop says which
outcome a walk has; DECOMPRESS that answered had room for every byte it met; and the state after a command is the one before
it with the answer written in, so nothing of the old `RES` is left. -/

namespace Sys2Proof.Machine

/-! ## The end of a walk -/

section WalkEnds

variable {s t : State} {bs : List Bool}

/-- The two ways the command behind a walk answers: the input was used up (R165), or a bit of it ended the command. -/
theorem endOfInput_eq_next {w : Walk} (h : endOfInput w = .next t) :
    (∃ u, w = .going u ∧ t = raise .truncatedInput (releaseDecoder u)) ∨ w = .ended (.next t) := by
  cases w with
  | going u => cases h; exact .inl ⟨u, rfl, rfl⟩
  | ended o => exact .inr (congrArg Walk.ended h)

/-- A bit that ends the command with an answer finds a missing child (R166) or the EOS leaf (R164). -/
theorem decodeBits_ended_next (h : decodeBits bs s = .ended (.next t)) :
    ∃ p b u nd, decodeBits p s = .going u ∧ u.nodeAt u.cur = some nd ∧
      ((branch b nd = Config.null ∧ t = raise .corruptStream (releaseDecoder u.countBit)) ∨
       (branch b nd = Config.eos ∧ t = succeed (releaseDecoder u.countBit))) := by
  obtain ⟨p, b, u, hp, hb⟩ := decodeBits_ended h
  refine ⟨p, b, u, ?_⟩
  rcases decodeBit_ended hb with ⟨-, ⟨⟩⟩ | ⟨nd, hnd, ⟨hnull, ho⟩ | ⟨heos, ho⟩ | ⟨-, ⟨⟩⟩⟩ <;> cases ho
  · exact ⟨nd, hp, hnd, .inl ⟨hnull, rfl⟩⟩
  · exact ⟨nd, hp, hnd, .inr ⟨heos, rfl⟩⟩

/-- The turn of the loop that meets a missing child (R166). -/
theorem decodeBit_null {b : Bool} {nd : Node} (hnd : s.nodeAt s.cur = some nd) (hnull : branch b nd = Config.null) :
    decodeBit b s = .ended (.next (raise .corruptStream (releaseDecoder s.countBit))) := by
  unfold decodeBit
  rw [hnd]
  exact if_pos hnull

/-- Both children of an internal node are there (R25). -/
theorem OnInternal.branch_ne_null {nd : Node} (h : OnInternal s) (hnd : s.nodeAt s.cur = some nd) (b : Bool) :
    branch b nd ≠ Config.null := by
  obtain ⟨hT, h1, h2⟩ := h
  obtain ⟨nd', hnd', hchild⟩ := hT.code.arena.child h1 h2
  cases hnd.symm.trans hnd'
  exact (hchild b).2

/-- On built tables a bit ends the command `OK` or not at all (R183). -/
theorem decodeBits_ended_ok (hs : OnInternal s) (h : decodeBits bs s = .ended (.next t)) : t.res = .ok := by
  obtain ⟨p, b, u, nd, hp, hnd, ⟨hnull, -⟩ | ⟨-, rfl⟩⟩ := decodeBits_ended_next h
  · have hu : OnInternal u := decodeBits_going_keeps decodeBit_going_onInternal hs hp
    exact absurd hnull (hu.branch_ne_null hnd b)
  · rfl

/-- While the walk goes on it writes no outcome, and draws no free value (log 6). -/
theorem decodeBits_going_res_draws (h : decodeBits bs s = .going t) : t.res = s.res ∧ t.draws = s.draws := by
  refine decodeBits_going_keeps (P := fun u => u.res = s.res ∧ u.draws = s.draws) (fun b u v hu hb => ?_) ⟨rfl, rfl⟩ h
  obtain ⟨nd, -, -, -, ⟨-, -, rfl⟩ | ⟨-, rfl⟩⟩ := decodeBit_going hb <;> exact hu

end WalkEnds

/-! ## The three commands -/

/-- The instructions that are commands (R80). -/
theorem isCommand_cases {i : Instr} (h : i.isCommand = true) : i = .init ∨ i = .compress ∨ i = .decompress :=
  (decodeCommand_eq_ok (decodeCommand_eq_ok_iff.mpr ⟨h, rfl⟩)).imp_left And.right

section Decompress

variable {s t : State} {d : List Byte} {rest : List Bool}

/-- The code word of a byte leads from the root to the byte's leaf (R116, R163). -/
theorem decodeBits_byte (hT : Tree s) (hc : s.cur = s.root) (b : Byte) :
    decodeBits (codeOf s.code b.toNat) s =
      byteLeaf (BitVec.ofNat 10 b.toNat) (s.countBits (codeOf s.code b.toNat).length) := by
  have hb := b.isLt
  have hleaf : (BitVec.ofNat 10 b.toNat).toNat = b.toNat := toNat_ofNat10 (by omega)
  have hcur : s.cur = 512#10 := hc.trans hT.root
  have hpath := (hT.code.stream (s := b.toNat) (by omega)).1
  rw [← hcur] at hpath
  rw [decodeBits_path hT (by rw [hcur]; decide) (by rw [hcur]; decide) (by omega) hpath, arrive, if_neg]
  intro heos
  have : b.toNat = 256 := hleaf.symm.trans (congrArg BitVec.toNat heos)
  omega

/-- With too little room for the bytes, the walk over their code words is refused (R217): it goes on up to the last byte
that fits. -/
theorem decodeBits_bytes_full (hT : Tree s) (hc : s.cur = s.root) (hstart : fits s.outLen s.inst.outMax = true)
    (hfull : fits (s.outLen + d.length) s.inst.outMax = false) :
    decodeBits (d.flatMap fun b => codeOf s.code b.toNat) s = .ended (.refused .outputOverflow) := by
  induction d using List.reverseRecOn with
  | nil => cases hstart.symm.trans hfull
  | append_singleton d b ih =>
    rw [List.flatMap_append, List.flatMap_singleton]
    cases hd : fits (s.outLen + d.length) s.inst.outMax with
    | false => exact decodeBits_append_of_ended (ih hd) _
    | true =>
      rw [List.length_append, List.length_singleton] at hfull
      rw [decodeBits_append_of_going (decodeBits_bytes hT hc d hd)]
      generalize (d.flatMap fun b => codeOf s.code b.toNat).length = k
      obtain ⟨hT', hcur, -⟩ := spelled_atRoot hT hc d k
      have hbyte := decodeBits_byte hT' (hcur.trans hT'.root.symm) b
      rw [byteLeaf_eq, if_neg] at hbyte
      · rw [spelled_frame] at hbyte ⊢
        exact hbyte
      · rw [spelled_frame]
        exact Bool.eq_false_iff.mp hfull

/-- DECOMPRESS that answers had room for the bytes whose code words its input begins with. -/
theorem execDecompress_next_fits (hT : Tree s) (hready : s.ready = true)
    (hin : s.inputBits = some ((d.flatMap fun b => codeOf s.code b.toNat) ++ rest)) (run : exec .decompress s = .next t) :
    fits d.length s.inst.outMax = true := by
  refine eq_true_of_ne_false fun hfull => ?_
  have hrefused : decodeBits (d.flatMap fun b => codeOf s.code b.toNat) (startDecoder s) =
      .ended (.refused .outputOverflow) :=
    decodeBits_bytes_full (startDecoder_tree hT) rfl (fits_zero _)
      (by rwa [startDecoder_outLen, startDecoder_inst, Nat.zero_add])
  rw [execDecompress_ready hready hin, decodeBits_append_of_ended hrefused] at run
  cases run

/-- Which way DECOMPRESS ends on tables of a tree, by how its input reads (R185). -/
theorem execDecompress_ends (hT : Tree s) (hready : s.ready = true) {bits : List Bool} (hin : s.inputBits = some bits)
    (run : exec .decompress s = .next t) :
    (t.res = .ok ∧ ∃ d rest, s.inputBits = some (bitString s.code d ++ rest)) ∨
      (t.res = .truncatedInput ∧ ∀ d rest, s.inputBits ≠ some (bitString s.code d ++ rest)) := by
  have ok_of_bitString (d : List Byte) (rest : List Bool) (h : s.inputBits = some (bitString s.code d ++ rest)) :
      t.res = .ok := by
    have hroom := execDecompress_next_fits hT hready (h.trans (by rw [bitString, List.append_assoc])) run
    obtain ⟨t', run', hres, -⟩ := execDecompress_bitString hT hready h hroom
    cases run.symm.trans run'
    exact hres
  rcases hT.code.reads bits with ⟨d, rest, rfl⟩ | ⟨d, hbits⟩
  · exact .inl ⟨ok_of_bitString d rest hin, d, rest, hin⟩
  · have ⟨p, n, heq, _⟩ := hbits
    obtain ⟨u, hwalk⟩ := decodeBits_startDecoder_going hT (execDecompress_next_fits hT hready (heq ▸ hin) run) hbits
    obtain ⟨t', run', hres, -⟩ := execDecompress_truncated hready hin hwalk
    cases run.symm.trans run'
    exact .inr ⟨hres, fun d' rest h => by cases (ok_of_bitString d' rest h).symm.trans hres⟩

end Decompress

/-- Settles O43: by what each command can do; the input of DECOMPRESS decides between its last two endings. -/
theorem commandsEndAsTheTableSays : Obligations.CommandsEndAsTheTableSays := by
  intro s t h
  refine ⟨fun run => ?_, fun run => ?_, fun run => ?_⟩
  · rcases execInit_eq_next run with ⟨hlen, rfl⟩ | ⟨hlen, x, -, rfl⟩
    · exact .inr ⟨rfl, hlen⟩
    · exact .inl ⟨rfl, hlen⟩
  · rcases execCompress_eq_next run with ⟨hready, rfl⟩ | ⟨hready, bs, s1, s2, s3, -, -, -, -, rfl⟩
    · exact .inr ⟨rfl, hready⟩
    · exact .inl ⟨rfl, hready⟩
  · rcases execDecompress_eq_next run with ⟨hready, rfl⟩ | ⟨hready, bits, hin, -⟩
    · exact .inl ⟨rfl, hready⟩
    · rcases execDecompress_ends (Tree.of_inv h hready) hready hin run with ⟨hres, hreads⟩ | ⟨hres, hreads⟩
      · exact .inr (.inl ⟨hres, hready, hreads⟩)
      · exact .inr (.inr ⟨hres, hready, hreads⟩)

/-- Settles O36: the walk meets the missing child behind the bits it has walked. A step from built tables runs a command,
which has no such ending (O43), or takes bits of a decoding in progress, on internal nodes only. -/
theorem corruptStreamIsRaisedAndUnreachable : Obligations.CorruptStreamIsRaisedAndUnreachable := by
  refine ⟨fun s u walked bits b nd hready hin hgoing hnd hnull => ?_, fun s t h hres hstep => ?_⟩
  · refine ⟨raise .corruptStream (releaseDecoder u.countBit), ?_, rfl, rfl⟩
    rw [execDecompress_ready hready hin, decodeBits_append_of_going hgoing, decodeBits, decodeBit_null hnd hnull]
    rfl
  · rcases step_eq_next hstep with ⟨-, -, rfl⟩ | ⟨-, rest, -, rfl⟩ | ⟨-, bs, rest, -, -, rfl⟩ |
      ⟨idle, c, rest, i, -, decoded, run⟩ | ⟨decoding, bits, rest, i, -, decoded, run⟩ | ⟨decoding, bits, -, run⟩
    · exact hres
    · nofun
    · exact hres
    · obtain ⟨hinit, hcompress, hdecompress⟩ := commandsEndAsTheTableSays _ t (withHost_inv h idle rest)
      rcases decodeCommand_eq_ok decoded with ⟨-, rfl⟩ | rfl | rfl
      · rcases hinit run with ⟨hend, -⟩ | ⟨hend, -⟩ <;> rw [hend] <;> nofun
      · rcases hcompress run with ⟨hend, -⟩ | ⟨hend, -⟩ <;> rw [hend] <;> nofun
      · rcases hdecompress run with ⟨hend, -⟩ | ⟨hend, -⟩ | ⟨hend, -⟩ <;> rw [hend] <;> nofun
    · rw [exec_codeWord i s (decodeCodeWord_eq_ok decoded).1] at run
      rcases consumeCodeWord_eq_next run with ⟨-, rfl⟩ | ⟨-, hgoing | hended⟩
      · nofun
      · rwa [(decodeBits_going_res_draws hgoing).1]
      · rw [decodeBits_ended_ok (h.onInternal decoding) hended]
        nofun
    · rcases endOfInput_eq_next run with ⟨u, -, rfl⟩ | hended
      · nofun
      · rw [decodeBits_ended_ok (h.onInternal decoding) hended]
        nofun

/-- Settles O35: no bits, no walk. -/
theorem decompressEmptyInputIsTruncated : Obligations.DecompressEmptyInputIsTruncated := by
  intro s hready hempty
  have hin : s.inputBits = some [] := by
    rw [State.inputBits, State.inputBytes, hempty]
    rfl
  obtain ⟨t, run, hres, hlen, -⟩ := execDecompress_truncated hready hin (decodeBits_nil (startDecoder s))
  exact ⟨t, run, hres, hlen⟩

/-! ## A failure delivers nothing (R186) -/

theorem execCompress_failure {s t : State} (h : execCompress s = .next t) (hres : t.res ≠ .ok) : t.outLen = 0 := by
  rcases execCompress_eq_next h with ⟨-, rfl⟩ | ⟨-, bs, s1, s2, s3, -, -, -, -, rfl⟩
  · rfl
  · exact absurd rfl hres

theorem execDecompress_failure {s t : State} (h : execDecompress s = .next t) (hres : t.res ≠ .ok) : t.outLen = 0 := by
  rcases execDecompress_eq_next h with ⟨-, rfl⟩ | ⟨-, bits, -, hend⟩
  · rfl
  · rcases endOfInput_eq_next hend with ⟨u, -, rfl⟩ | hended
    · rfl
    · obtain ⟨p, b, u, nd, -, -, ⟨-, rfl⟩ | ⟨-, rfl⟩⟩ := decodeBits_ended_next hended
      · rfl
      · exact absurd rfl hres

/-- Settles O44: INIT fails before it builds anything; the other two never write the tables or the input. -/
theorem failureDeliversNothing : Obligations.FailureDeliversNothing := by
  intro i s t hi run hres
  rcases isCommand_cases hi with rfl | hi'
  · rcases execInit_eq_next run with ⟨-, rfl⟩ | ⟨-, x, -, rfl⟩
    · exact ⟨rfl, rfl, rfl, rfl, rfl, rfl, rfl, absurd rfl, fun _ => rfl⟩
    · exact absurd rfl hres
  · obtain ⟨hinst, hnode, hroot, hcode, hready, hinp, hinLen⟩ := exec_sameTablesAndInput hi' run
    have hlen : t.outLen = 0 := by
      rcases hi' with rfl | rfl
      · exact execCompress_failure run hres
      · exact execDecompress_failure run hres
    have hinit : i ≠ .init := by rcases hi' with rfl | rfl <;> decide
    exact ⟨hlen, hinst, hnode, hroot, hcode, hinp, hinLen, fun _ => hready, fun h => absurd h hinit⟩

/-! ## `RES` is not sticky (R187) -/

/-- All of the state COMPRESS answers but its answer: free values in the encoder's registers, the rest as before. -/
theorem execCompress_eq_release {s t : State} (hready : s.ready = true) (h : execCompress s = .next t) :
    t = releaseEncoder { s with res := t.res, out := t.out, outLen := t.outLen } := by
  rcases execCompress_eq_next h with ⟨hnot, -⟩ | ⟨-, bs, s1, s2, s3, -, h1, h2, h3, rfl⟩
  · cases hready.symm.trans hnot
  · rw [show s3 = _ from compressParts_encoderFrame h1 h2 h3]
    rfl

/-- All of the state DECOMPRESS answers but its answer: free values in the decoder's registers, the rest as before. -/
theorem execDecompress_eq_release {s t : State} (hready : s.ready = true) (h : execDecompress s = .next t) :
    t = releaseDecoder { s with res := t.res, out := t.out, outLen := t.outLen } := by
  have walked {bs : List Bool} {u : State} (hu : decodeBits bs (startDecoder s) = .going u) :
      u = { s with out := u.out, outLen := u.outLen, cur := u.cur, k := u.k, res := u.res, phase := u.phase } := by
    have hdraws : u.draws = s.draws := (decodeBits_going_res_draws hu).2
    have hframe : DecoderFrame s u := DecoderFrame.trans (t := startDecoder s) rfl (decodeBits_going_frame hu)
    rw [← hdraws]
    exact hframe
  rcases execDecompress_eq_next h with ⟨hnot, -⟩ | ⟨-, bits, -, hend⟩
  · cases hready.symm.trans hnot
  · rcases endOfInput_eq_next hend with ⟨u, hu, rfl⟩ | hended
    · rw [walked hu]
      rfl
    · obtain ⟨p, b, u, nd, hu, -, ⟨-, rfl⟩ | ⟨-, rfl⟩⟩ := decodeBits_ended_next hended <;> rw [walked hu] <;> rfl

/-- Two outcomes with the same answers are the same when the answer decides the state. -/
theorem OutcomeRel.eq_of_sameAnswer {o o' : Host.Outcome State Fault Refusal} (h : OutcomeRel SameAnswer o o')
    (f : Result → Memory → Nat → State) (ho : ∀ t, o = .next t → t = f t.res t.out t.outLen)
    (ho' : ∀ t, o' = .next t → t = f t.res t.out t.outLen) : o' = o := by
  rcases h.cases with ⟨t, t', rfl, rfl, hres, hlen, hout⟩ | ⟨e, rfl, rfl⟩ | ⟨r, rfl, rfl⟩
  · rw [ho t rfl, ho' t' rfl, hres, hlen, hout]
  · rfl
  · rfl

theorem execCompress_withRes (s : State) (r : Result) : execCompress { s with res := r } = execCompress s := by
  rcases Bool.eq_false_or_eq_true s.ready with hready | hready
  · have hsame := execCompress_sameAnswer (s := s) (s' := { s with res := r }) rfl rfl rfl rfl rfl
    exact hsame.eq_of_sameAnswer (fun res out outLen => releaseEncoder { s with res := res, out := out, outLen := outLen })
      (fun _ => execCompress_eq_release hready) (fun _ => execCompress_eq_release (s := { s with res := r }) hready)
  · rw [execCompress_notReady (s := { s with res := r }) hready, execCompress_notReady hready]
    rfl

theorem execDecompress_withRes (s : State) (r : Result) : execDecompress { s with res := r } = execDecompress s := by
  rcases Bool.eq_false_or_eq_true s.ready with hready | hready
  · have hsame := execDecompress_sameAnswer (s := s) (s' := { s with res := r }) rfl rfl rfl rfl rfl rfl
    exact hsame.eq_of_sameAnswer (fun res out outLen => releaseDecoder { s with res := res, out := out, outLen := outLen })
      (fun _ => execDecompress_eq_release hready) (fun _ => execDecompress_eq_release (s := { s with res := r }) hready)
  · rw [execDecompress_notReady (s := { s with res := r }) hready, execDecompress_notReady hready]
    rfl

/-- Settles O45: INIT writes `RES` on each of its branches; for the other two, equal answers make equal states. -/
theorem resultIsNotSticky : Obligations.ResultIsNotSticky := by
  intro i s r hi
  rcases isCommand_cases hi with rfl | rfl | rfl
  · rfl
  · exact execCompress_withRes s r
  · exact execDecompress_withRes s r

end Sys2Proof.Machine
end

section
/-! SUPPORT. Every step of a supported run answers (O53, R180, R224). With unbounded buffers nothing is refused for want of
room, and a walk on built tables that ends has an answer. -/

namespace Sys2Proof.Machine

section Unbounded

variable {s : State}

/-- Without a bound on `OUT`, a walk from an internal node that ends has an answer. -/
theorem decodeBits_ended_answersNext {bs : List Bool} {o : Host.Outcome State Fault Refusal} (hs : OnInternal s)
    (hmax : s.inst.outMax = none) (h : decodeBits bs s = .ended o) : answersNext o := by
  obtain ⟨p, b, u, hp, hb⟩ := decodeBits_ended h
  have hu : OnInternal u := decodeBits_going_keeps decodeBit_going_onInternal hs hp
  rcases decodeBit_ended hb with ⟨hnone, -⟩ | ⟨nd, -, ⟨-, ho⟩ | ⟨-, ho⟩ | ⟨hfull, -⟩⟩
  · exact absurd hnone hu.nodeAt_ne_none
  · exact ⟨_, ho⟩
  · exact ⟨_, ho⟩
  · obtain ⟨hinst, -⟩ := (decodeBits_going_frame hp).sameTablesAndInput
    rw [hinst, hmax] at hfull
    cases hfull

theorem endOfInput_answersNext (hs : OnInternal s) (hmax : s.inst.outMax = none) (bs : List Bool) :
    answersNext (endOfInput (decodeBits bs s)) := by
  cases h : decodeBits bs s with
  | going u => exact ⟨_, rfl⟩
  | ended o => exact decodeBits_ended_answersNext hs hmax h

theorem consumeCodeWord_answersNext (hready : s.ready = true) (hs : OnInternal s) (hmax : s.inst.outMax = none)
    (word len : Nat) : answersNext (consumeCodeWord word len s) := by
  rw [consumeCodeWord_ready hready]
  cases h : decodeBits (bitsLsb len word) s with
  | going u => exact ⟨_, rfl⟩
  | ended o => exact decodeBits_ended_answersNext hs hmax h

theorem execInit_answersNext (h : FreqInRange s.inst.freq ∨ s.inst.freq.length ≠ Config.nsym) :
    answersNext (exec .init s) := by
  rcases h with hrange | hlen
  · obtain ⟨x, -, run⟩ := execInit_of_inRange hrange
    exact ⟨_, run⟩
  · exact ⟨_, execInit_of_wrongLength hlen⟩

theorem execCompress_answersNext (h : s.Inv) (hmax : s.inst.outMax = none) : answersNext (exec .compress s) := by
  cases hready : s.ready with
  | false => exact ⟨_, execCompress_notReady hready⟩
  | true =>
    obtain ⟨d, hin⟩ := h.inputBytes_eq_some
    obtain ⟨t, run, -⟩ := (execCompress_writes (Tree.of_inv h hready).code hready hin).exists_next (by rw [hmax]; rfl)
    exact ⟨t, run⟩

theorem execDecompress_answersNext (h : s.Inv) (hmax : s.inst.outMax = none) : answersNext (exec .decompress s) := by
  cases hready : s.ready with
  | false => exact ⟨_, execDecompress_notReady hready⟩
  | true =>
    obtain ⟨bits, hin⟩ := h.inputBits_eq_some
    rw [execDecompress_ready hready hin]
    exact endOfInput_answersNext (startDecoder_onInternal (Tree.of_inv h hready)) hmax bits

end Unbounded

/-- Every value of `CMD` but 0 is a command's (R80, R93). -/
theorem decodeCommand_of_ne_zero {c : CmdWord} (h : c ≠ 0) : ∃ i, decodeCommand c = .ok i := by
  have hc : c = 1 ∨ c = 2 ∨ c = 3 := by
    revert c
    decide
  rcases hc with rfl | rfl | rfl <;> exact ⟨_, rfl⟩

/-- Settles O53: by the branches of a step. -/
theorem everyStepAnswersOnSupportedRuns : Obligations.EveryStepAnswersOnSupportedRuns := by
  intro s h hinMax houtMax hfreq hcmd
  unfold step
  split
  case h_1 => exact ⟨_, rfl⟩
  case h_2 => exact ⟨_, rfl⟩
  case h_3 bs rest idle queue => exact ⟨_, hostInput_eq_next.mpr ⟨by rw [withHost_inst, hinMax, fits_none], rfl⟩⟩
  case h_4 c rest idle queue =>
    obtain ⟨i, decoded⟩ := decodeCommand_of_ne_zero (c := c) fun hzero => hcmd rest (hzero ▸ queue)
    have h' := withHost_inv h idle rest
    rw [decoded]
    rcases decodeCommand_eq_ok decoded with ⟨-, rfl⟩ | rfl | rfl
    · exact execInit_answersNext (s := s.withHost rest) hfreq
    · exact execCompress_answersNext h' houtMax
    · exact execDecompress_answersNext h' houtMax
  case h_5 decoding =>
    have hs := h.onInternal decoding
    obtain ⟨bits, fetched⟩ := h.remainingBits_eq_some
    rw [fetched]
    dsimp only
    split
    · rename_i i rest decoded
      rw [exec_codeWord i s (decodeCodeWord_eq_ok decoded).1]
      exact consumeCodeWord_answersNext (h.decoding decoding).ready hs houtMax _ _
    · exact endOfInput_answersNext hs houtMax bits

end Sys2Proof.Machine
end
